-- ==== Sys2Proof/Word.lean ====
section
/-! DEFINITION. The byte and word types of the drive: a byte, a 32-bit register word, a byte string. -/

namespace Sys2Proof

/-- One byte. -/
abbrev Byte := BitVec 8

/-- One 32-bit register (R649). -/
abbrev Word := BitVec 32

/-- A byte string, first byte first. -/
abbrev Bytes := List Byte

end Sys2Proof
end

