-- ==== Sys2Proof/Syntax.lean ====
section
/-! DEFINITION. The commands and events of the drive: one constructor of `Instr` for each row of
`spec/opcode_table.json`, with the operands the row acts on. -/

namespace Sys2Proof

/-- The two Ethernet ports (R418). -/
inductive Port where
  | a | b
  deriving DecidableEq, Repr

/-- The three register access paths (R650), with the codes of `SYS_PATH` (R657): 0, 1, 2. -/
inductive Path where
  | smbus | admin | preload
  deriving DecidableEq, Repr

/-- A submission entry without its opcode byte (R108). `key` is SQE bytes 0x20-0x4F, `val` bytes 0x50-0x6F and
`cmd` bytes 0x70-0x7F. -/
structure Sqe where
  flags   : BitVec 8 := 0
  ks      : BitVec 16 := 0
  tag     : BitVec 16 := 0
  domTag  : BitVec 16 := 0xFFFF
  domSq   : BitVec 16 := 0
  keyLen  : BitVec 16 := 0
  valLen  : BitVec 32 := 0
  reqId   : BitVec 64 := 0
  operand : BitVec 64 := 0
  key     : Bytes := []
  val     : Bytes := []
  cmd     : Bytes := []
  deriving DecidableEq, Repr

/-- The part of host memory that answers the drive's RDMA READs of a command: remote address and the bytes there.
An address that no entry covers is refused by the host (R113). -/
abbrev HostMem := List (Nat × Bytes)

/-- A path offered by CM: remote address, next-hop MAC and the local port of its GID (R443). -/
structure AltPath where
  port : Port
  ip   : BitVec 128
  mac  : BitVec 48
  deriving DecidableEq, Repr

/-- The fields of a CM REQ that the drive judges or keeps (R89, R90, R427, R443). -/
structure CmReq where
  port      : Port
  serviceId : BitVec 64
  rc        : Bool
  pmtu      : Nat
  resources : Nat
  index     : Nat
  qpn       : BitVec 24
  psn       : BitVec 24
  ip        : BitVec 128
  mac       : BitVec 48
  ackTo     : BitVec 5
  retry     : BitVec 3
  rnrRetry  : BitVec 3
  rnrTimer  : BitVec 5
  alt       : Option AltPath
  deriving DecidableEq, Repr

/-- A received flow-control frame (R435): 802.3 PAUSE, or PFC with its priority vector. -/
inductive FlowFrame where
  | pause (quanta : Nat)
  | pfc (vector : BitVec 8) (quanta : Nat)
  deriving DecidableEq, Repr

/-- What the power-loss sequence achieved (R409): whether the seal and the checkpoint delta were written, and how long
it took to step 8. (log 12 DESIGN CHOICE) -/
structure Flush where
  sealed : Bool
  ckpt : Bool
  ms   : Nat
  deriving DecidableEq, Repr

/-- What else a step of the read ladder reports (R345, R346, R471): the number of table entries tried after the calibrated one, the members of
the stripe row that failed, whether the unit tags match. -/
structure StepEnd where
  tries  : Nat
  failed : BitVec 32
  tagOk  : Bool
  deriving DecidableEq, Repr

/-- What BOOT finds in the module (R39, R414, R482, R548, R554): the firmware cores whose self-tests pass, the cipher and
digest cores that fail theirs, the tiles that fail, whether P-384 passes, the turn serials whose packs or chunks replay cannot read, whether
12 V was asked for by a scrub, whether a calibration copy is valid and whether the installed time could be restored. -/
structure BootFinds where
  coresPass : BitVec 32
  aesFail   : BitVec 16
  digFail   : BitVec 8
  tilesFail : BitVec 16
  p384Ok    : Bool
  lost      : List Nat
  indexLost : Bool
  calOk     : Bool
  timeOk    : Bool
  deriving DecidableEq, Repr

/-- One unit of self-test work (R581, R582): what it read, and the part and unit at fault when it failed. -/
structure TestUnit where
  part     : Nat
  ok       : Bool
  unit     : Nat
  locator  : BitVec 48
  read     : Nat
  step2    : Nat
  waited   : Nat
  progress : Nat
  last     : Bool
  deriving DecidableEq, Repr

/-- How a reset or retrain of a flash channel ended: whether it succeeded, and the positions whose dies do not respond after it. -/
structure Retrain where
  ok     : Bool
  silent : BitVec 15
  deriving DecidableEq, Repr

/-- The commands and events of the table, in the table's order. -/
inductive Instr where
  -- data commands: SQ, submission entry, host memory behind its descriptors
  | get (sq : Nat) (e : Sqe) (m : HostMem)
  | put (sq : Nat) (e : Sqe) (m : HostMem)
  | delete (sq : Nat) (e : Sqe) (m : HostMem)
  | existsKey (sq : Nat) (e : Sqe) (m : HostMem)
  | getrange (sq : Nat) (e : Sqe) (m : HostMem)
  | append (sq : Nat) (e : Sqe) (m : HostMem)
  | cas (sq : Nat) (e : Sqe) (m : HostMem)
  | tget (sq : Nat) (e : Sqe) (m : HostMem)
  -- set-level commands
  | batch (sq : Nat) (e : Sqe) (m : HostMem)
  | scan (sq : Nat) (e : Sqe) (m : HostMem)
  | search (sq : Nat) (e : Sqe) (m : HostMem)
  | find (sq : Nat) (e : Sqe) (m : HostMem)
  | watch (sq : Nat) (e : Sqe) (m : HostMem)
  | unwatch (sq : Nat) (e : Sqe) (m : HostMem)
  | snapshot (sq : Nat) (e : Sqe) (m : HostMem)
  | snapclose (sq : Nat) (e : Sqe) (m : HostMem)
  | flush (sq : Nat) (e : Sqe) (m : HostMem)
  | barrier (sq : Nat) (e : Sqe) (m : HostMem)
  -- admin commands
  | kscreate (sq : Nat) (e : Sqe) (m : HostMem)
  | ksdelete (sq : Nat) (e : Sqe) (m : HostMem)
  | ksmodify (sq : Nat) (e : Sqe) (m : HostMem)
  | qcreate (sq : Nat) (e : Sqe) (m : HostMem)
  | qdeleteSq (sq : Nat) (e : Sqe) (m : HostMem)
  | qdeleteCq (sq : Nat) (e : Sqe) (m : HostMem)
  | qrestartResume (sq : Nat) (e : Sqe) (m : HostMem)
  | qrestartDiscard (sq : Nat) (e : Sqe) (m : HostMem)
  | abort (sq : Nat) (e : Sqe) (m : HostMem)
  | regRead (sq : Nat) (e : Sqe) (m : HostMem)
  | regWrite (sq : Nat) (e : Sqe) (m : HostMem)
  | logread (sq : Nat) (e : Sqe) (m : HostMem)
  | evfreeze (sq : Nat) (e : Sqe) (m : HostMem)
  | evthaw (sq : Nat) (e : Sqe) (m : HostMem)
  | keyloadSlot (sq : Nat) (e : Sqe) (m : HostMem)
  | keyloadTenant (sq : Nat) (e : Sqe) (m : HostMem)
  | tokenKeyRotation (sq : Nat) (e : Sqe) (m : HostMem)
  | keydropSlot (sq : Nat) (e : Sqe) (m : HostMem)
  | keydropTenant (sq : Nat) (e : Sqe) (m : HostMem)
  | setmode (sq : Nat) (e : Sqe) (m : HostMem)
  | selftestShort (sq : Nat) (e : Sqe) (m : HostMem)
  | selftestExtended (sq : Nat) (e : Sqe) (m : HostMem)
  | selftestStop (sq : Nat) (e : Sqe) (m : HostMem)
  | fwdownload (sq : Nat) (e : Sqe) (m : HostMem)
  | fwverify (sq : Nat) (e : Sqe) (m : HostMem)
  | fwactivateReset (sq : Nat) (e : Sqe) (m : HostMem)
  | fwactivateLive (sq : Nat) (e : Sqe) (m : HostMem)
  | fwconfirm (sq : Nat) (e : Sqe) (m : HostMem)
  | sanitize (sq : Nat) (e : Sqe) (m : HostMem)
  | identify (sq : Nat) (e : Sqe) (m : HostMem)
  -- the command pipeline
  | sqeFetchIssue (sq n : Nat) (catchUp : Bool)
  | sqeArrival (sq : Nat) (entries : List Bytes)
  | dominoResolve (sq tag : Nat)
  | barrierRelease (sq tag : Nat)
  | dedupRepeatRelease (sq tag : Nat)
  | windowEntryExpiry
  | valueDataArrival (sq tag : Nat) (data : Bytes)
  | rdmaReadRefused (sq : Nat) (tag : Option Nat)
  | cipherPreempt (digest : Bool) (cls ctx : Nat)
  | chunkProgramComplete (recId chunk : Nat) (ok : Bool) (loc : BitVec 48)
  | packWindowExpiry
  | packProgramComplete (pack : Nat) (ok : Bool) (loc : BitVec 48)
  | journalProgramTimer
  | journalProgramComplete
  | admission
  | pacedAdmission
  | turn (sq tag : Nat)
  | settle (sq tag : Nat)
  | discardedSettle (sq tag : Nat)
  | abortedSettle (sq tag : Nat)
  | cqeWrite (sq tag : Nat)
  | notificationTimer (cq : Nat)
  | errorRecordWrite (sq : Nat)
  | eventCqeRelease (conn : Nat)
  | watchCheck
  -- connections, doorbells, RoCE
  | cmReq (r : CmReq)
  | cmRtu (conn : Nat)
  | cmDreq (conn : Nat)
  | cmLap (conn : Nat) (p : AltPath)
  | hello (conn : Nat) (data : Bytes)
  | helloTimeout (conn : Nat)
  | sendAfterHello (conn : Nat)
  | sqDoorbell (conn off : Nat) (data : Bytes)
  | cqDoorbell (conn off : Nat) (data : Bytes)
  | invalidRequest (conn : Nat) (opcode : Byte) (remoteAccess : Bool)
  | roceAck (conn : Nat) (psn : BitVec 24)
  | nakSequence (conn : Nat) (psn : BitVec 24)
  | rnrNak (conn : Nat) (psn : BitVec 24)
  | ackTimeout (conn : Nat)
  | duplicateRequest (conn : Nat) (psn : BitVec 24) (ahead : Bool)
  | connectionFree (conn : Nat)
  | ceMarkedPacket (conn : Nat)
  | cnpReceive (conn : Nat)
  | rateRecoveryTimer (conn : Nat)
  | alternatePathPacket (conn : Nat)
  | nextHopRefresh
  -- Ethernet ports
  | frameReceive (port : Port) (frame : Bytes) (fcsOk icrcOk : Bool)
  | arpRequest (port : Port) (ip : BitVec 32) (mac : BitVec 48) (target : BitVec 32)
  | neighborSolicitation (port : Port) (ip : BitVec 128) (mac : BitVec 48) (target : BitVec 128)
  | icmpEcho (port : Port) (ip : BitVec 128) (mac : BitVec 48) (payload : Bytes)
  | addressResolutionRetry (port : Port) (ip : BitVec 128)
  | linkUp (port : Port) (mode : Nat) (fec : Bool)
  | linkDown (port : Port)
  | pauseReceive (port : Port) (f : FlowFrame)
  | pauseExpiry (port : Port)
  | pauseRefreshTimer (port : Port)
  | pauseRelease (port : Port) (fill : Nat)
  | netPausestorm (port : Port)
  | pausestormEnd (port : Port)
  | txUnderrun (port : Port)
  | cutThroughDecay (port : Port)
  | wakeFrame (frame : Bytes) (fcsOk : Bool)
  | jackLockEnd
  | jackLinkRetry (up : Bool)
  | linkRestart (p : Path) (port : Port) (v : Word)
  | filterLoad (p : Path) (port : Port)
  | filterFetch (p : Path) (port : Port)
  | maxfrmWrite (p : Path) (port : Port) (v : Word)
  | addressWrite (p : Path) (port : Port) (off : Nat) (v : Word)
  | wakecodeWrite (p : Path) (hi : Bool) (v : Word)
  -- management-path commands on connections and queues
  | connHold (p : Path)
  | connProvision (p : Path)
  | connClose (p : Path)
  | connRelease (p : Path)
  | altPathArm (p : Path)
  | hwmclr (p : Path)
  -- the drive cascade
  | clkmstWrite (p : Path) (v : Word)
  | clockSampleEnd (present : Bool)
  | cascadeEnable (p : Path) (v : Word)
  | ringJoin
  | rollnow (p : Path)
  | rollCallTimer
  | arbitrationStart
  | pass1Return (roll : Bool) (seq : Byte) (mismatch : Bool) (slots : Byte) (latency : Option Nat)
  | pass2Receive (roll void : Bool) (seq : Byte) (mismatch : Bool) (slots : Byte) (win : BitVec 3) (valid : Bool)
  | cascClkLoss
  | cscSyncto
  -- media
  | codewordRead (sq tag cw : Nat) (loc : BitVec 48) (ok weak tagOk : Bool)
  | ladderStepComplete (sq tag : Nat) (ok : Bool) (r : StepEnd)
  | rebuildEnd (ks : Nat)
  | segmentRefresh (seg target : Nat)
  | schedulingEpoch
  | fold (seg target : Nat)
  | gcCopyProgrammed (src target : Nat) (ok : Bool) (loc : BitVec 48)
  | gcMapCommit (src : Nat)
  | gcReclaimRecord (src : Nat)
  | blockEraseComplete (src : Nat) (ok : Bool) (loc : BitVec 48)
  | spareRebuildEnd (channel : Nat)
  | channelRetrainComplete (channel : Nat) (result : Retrain)
  | scrubPassStart
  | scrubPassEnd (entries : List (BitVec 4))
  | scrubDeferral
  | scrubNow (p : Path)
  -- power, staging, hold-up bank
  | mainPowerLoss (f : Flush)
  | pwrMainLow (mv : Nat)
  | measurementRoundStart
  | sectionDischargeDone (dtUs : Nat) (esr : Nat)
  | sectionRechargeDone
  | sectionChargeTimeout (n : Fin 8)
  | sectionShort (n : Fin 8)
  | bankCharged
  | sectionIsolateCmd (p : Path) (v : Word)
  | measureNow (p : Path)
  | stagecapWrite (p : Path) (v : Word)
  -- operating modes
  | pwrCmdMode (p : Path) (v : Word)
  | pwrCmdCap (p : Path) (v : Word)
  | autoIdle
  | idleEntryDone
  | idleExitDone
  | parkDrainDone
  | parkPowerDown
  | wakePin
  | rtcAlarm
  | rtcScrubWake
  | powerGrant
  | resumeDone
  | pwrGoodLow
  | thermalWarn (temp : BitVec 16)
  | thermalRecover (temp : BitVec 16)
  | thermalShutdown (temp : BitVec 16) (f : Flush)
  | resetAssert (f : Flush)
  | auxRise (slot : BitVec 3)
  | auxLoss
  | bootEntry
  | boot (b : BootFinds)
  | replayDone (ms : Nat)
  -- update, sanitize, self-test, live service
  | trialTimeout
  | updRollback (p : Path) (v : Word)
  | sanitizeStepComplete (retired : Nat)
  | selftestUnit (u : TestUnit)
  | actCoreReplace (p : Path) (v : Word)
  | actTileFence (p : Path) (v : Word)
  | actDieRetire (p : Path) (v : Word)
  | actDieRecalibrate (p : Path) (v : Word)
  | actLaneRetrain (p : Path) (v : Word)
  | islFence (p : Path) (v : Word)
  | islRelease (p : Path) (v : Word)
  | islReset (p : Path) (v : Word)
  | coreFailure (core : Fin 32)
  | liveActionEnd (serial : Nat) (ok : Bool) (stallUs : Nat)
  -- crypto
  | katRound (aesFail : BitVec 16) (digFail : BitVec 8) (done : Bool)
  | katNow (p : Path)
  | cryBusError (core : Fin 24)
  | cryVoltageAlarm
  | cryClockAlarm
  | cryTamperAlarm
  | cryKeysRestored
  | blobLoad (p : Path)
  | digStart (p : Path) (v : Word)
  | digPush (p : Path) (v : Word)
  | digLast (p : Path) (v : Word)
  | digDone (ctx : Fin 4)
  -- DRAM
  | dramUncorrectable (ch : Fin 4) (sub : Bool) (region : Nat) (addr : BitVec 64) (holds : Option Nat) (mirrorOk : Bool)
  | parityAlert (ch : Fin 4) (sub : Bool)
  | replayComplete (ch : Fin 4) (ok : Bool) (stagedLost : Bool)
  | patrolTimer
  | patrolStart (p : Path)
  | dramRetrainTimer (ch : Fin 4)
  | dramRetrain (p : Path)
  | trainingComplete (ch : Fin 4)
  | speedSwitchDone (ch : Fin 4)
  -- recorder and clocks
  | recordMove
  | freezeTimeout
  | lifeClockJournal
  | timeSet (p : Path) (v : Word)
  -- management bus
  | mctpPacket (packet : Bytes)
  | setEndpointId (eid : Byte) (op : BitVec 2)
  | getEndpointId
  | getEndpointUuid
  | getMctpVersionSupport (type : Byte)
  | getMessageTypeSupport
  | getVendorMessageSupport (sel : Byte)
  | mctpRead (off count : Nat)
  | mctpWrite (off count : Nat) (data : Bytes)
  | status
  | areaErase (area : Nat)
  | areaEraseComplete
  | areaWrite (area off : Nat) (data : Bytes)
  | slotVerify (slot : Nat)
  | slotInstall (slot : Nat)
  | sessionChallenge
  | sessionOpen (request : Bytes)
  | sessionSealed (request : Bytes)
  | sessionClose (sid : BitVec 16)
  | sessionTimeout
  | smbusTimeout
  | responseRetry
  | alertResponse
  -- register access
  | selectWrite (p : Path) (off : Nat) (v : Word)
  | pfcfgWrite (p : Path) (v : Word)
  | tilecfgWrite (p : Path) (v : Word)
  | halfLatchRead (p : Path) (off : Nat)
  | registerAccessTimeout (p : Path) (off : Nat)
  | registerWrite (p : Path) (off : Nat) (v : Word)
  -- the table's last rows
  | rdmaWriteRefused (conn : Nat) (psn : BitVec 24)
  | sectionMeasurementStart (vc : Nat)
  | configurationStoreWrite
  | patrolEnd
  | auxBelowRange
  | netFecdeg (port : Port) (lane : Bool)
  deriving DecidableEq, Repr

end Sys2Proof
end

