-- ==== Sys2Proof/Decode.lean ====
section
/-! DEFINITION. Commands spelt by words. The opcode table of this block gives no row any bits: a command comes with its
operands, and no word spells one. -/

namespace Sys2Proof

/-- The command that a word spells by the bits of the table: none, since no row has bits. -/
def decodeTableWord (_nbits _w : Nat) : Option Instr := none

end Sys2Proof
end

