-- ==== Sys2Proof/Machine/Bits.lean ====
section
/-! DEFINITION. Byte strings, little-endian and big-endian fields, bit fields and byte-wise order (R6, R54). -/

namespace Sys2Proof.Machine

/-- `n` bytes, all `b`. -/
def fill (n : Nat) (b : Byte) : Bytes := List.replicate n b

/-- The `n` low bytes of `v`, least significant byte first (R6). -/
def leBytes : Nat → Nat → Bytes
  | 0, _ => []
  | n + 1, v => BitVec.ofNat 8 v :: leBytes n (v / 256)

/-- The number a byte string holds, least significant byte first (R6). -/
def leNat : Bytes → Nat
  | [] => 0
  | b :: bs => b.toNat + 256 * leNat bs

/-- The `n` low bytes of `v`, most significant byte first. -/
def beBytes (n v : Nat) : Bytes := (leBytes n v).reverse

/-- The number a byte string holds, most significant byte first. -/
def beNat (bs : Bytes) : Nat := leNat bs.reverse

/-- `n` bytes of `bs` from offset `o`, bytes past the end read as 0. -/
def slice (bs : Bytes) (o n : Nat) : Bytes :=
  let p := (bs.drop o).take n
  p ++ fill (n - p.length) 0

/-- `bs` brought to exactly `n` bytes, with zeros on the right. -/
def padTo (n : Nat) (bs : Bytes) : Bytes := slice bs 0 n

/-- The little-endian number in the `n` bytes of `bs` from offset `o`. -/
def le (bs : Bytes) (o n : Nat) : Nat := leNat (slice bs o n)

/-- Byte `o` of `bs` as a number. -/
def byteAt (bs : Bytes) (o : Nat) : Nat := le bs o 1

/-- `bs` with the bytes from offset `o` replaced by `new`. -/
def overlay (bs : Bytes) (o : Nat) (new : Bytes) : Bytes :=
  slice bs 0 o ++ new ++ bs.drop (o + new.length)

/-- Bits `lo .. lo + w - 1` of `v` as a number. -/
def field (v : Nat) (lo w : Nat) : Nat := v / 2 ^ lo % 2 ^ w

/-- Bit `i` of `v`. -/
def bit (v : Nat) (i : Nat) : Bool := field v i 1 == 1

/-- A Boolean as bit `i` of a number. -/
def bitAt (i : Nat) (b : Bool) : Nat := if b then 2 ^ i else 0

/-- A value as a field at bit `lo` of width `w`; bits past the width are dropped. -/
def fbits (lo w v : Nat) : Nat := v % 2 ^ w * 2 ^ lo

/-- A number as a register word, bits past 31 dropped. -/
def word (v : Nat) : Word := BitVec.ofNat 32 v

/-- The low and the high half of a 64-bit value. -/
def loHalf (v : Nat) : Word := word v
def hiHalf (v : Nat) : Word := word (v / 2 ^ 32)

/-- A counter that wraps at 32 bits in silence. -/
def wrap32 (v : Nat) : Nat := v % 2 ^ 32

/-- Strict byte-wise order, the shorter of two keys first when it starts the longer (R54). -/
def bytesLt : Bytes → Bytes → Bool
  | [], [] => false
  | [], _ :: _ => true
  | _ :: _, [] => false
  | a :: as, b :: bs => if a = b then bytesLt as bs else decide (a.toNat < b.toNat)

/-- ASCII text as bytes. -/
def ascii (s : String) : Bytes := s.toList.map fun c => BitVec.ofNat 8 c.toNat

/-- Text padded on the right with spaces to `n` bytes (R173). -/
def asciiPad (n : Nat) (bs : Bytes) : Bytes := bs.take n ++ fill (n - bs.length) 0x20

/-- Replaces the first element that satisfies `p`; the list is unchanged when none does. -/
def updFirst {α : Type} (p : α → Bool) (f : α → α) : List α → List α
  | [] => []
  | x :: xs => if p x then f x :: xs else x :: updFirst p f xs

/-- Inserts into a list sorted by `k`, after the elements of equal or lower key. -/
def insertBy {α : Type} (k : α → Nat) (a : α) : List α → List α
  | [] => [a]
  | x :: xs => if k x ≤ k a then x :: insertBy k a xs else a :: x :: xs

/-- Sorts by a strict order, keeping equal elements in place. -/
def sortLt {α : Type} (lt : α → α → Bool) : List α → List α
  | [] => []
  | x :: xs => ins x (sortLt lt xs)
where
  ins (a : α) : List α → List α
    | [] => [a]
    | y :: ys => if lt y a then y :: ins a ys else a :: y :: ys

/-- Sum of a natural-number measure over a list. -/
def sumBy {α : Type} (f : α → Nat) (l : List α) : Nat := l.foldl (fun a x => a + f x) 0

/-- The lowest number below `n` that is not in `used`. -/
def lowestFree (n : Nat) (used : List Nat) : Option Nat := (List.range n).find? fun i => !used.contains i

/-- The value a sparse table gives `k`, or the default. -/
def lookupD {α : Type} (t : List (Nat × α)) (k : Nat) (dflt : α) : α :=
  match t.find? (fun p => p.1 == k) with
  | some p => p.2
  | none => dflt

/-- Sets the entry of `k` in a sparse table. -/
def setKey {α : Type} (t : List (Nat × α)) (k : Nat) (v : α) : List (Nat × α) :=
  if t.any (fun p => p.1 == k) then t.map (fun p => if p.1 == k then (k, v) else p) else t ++ [(k, v)]

/-- Numbers the elements of a list from 0. -/
def numbered {α : Type} (l : List α) : List (Nat × α) := (List.range l.length).zip l

/-- Rounds up to a multiple of `m`. -/
def roundUp (n m : Nat) : Nat := (n + m - 1) / m * m

end Sys2Proof.Machine
end

