-- ==== Sys2Proof/Config.lean ====
section
/-! DEFINITION. What a module fixes at manufacture, and the free values: opaque constants that no proof can look into. -/

namespace Sys2Proof

/-- The drive's random source and every value the spec leaves open, byte by byte (R93, R291, R663): byte number `n` drawn.
(log 4 DESIGN CHOICE) -/
opaque Config.freeByte : Nat → Byte

/-- Open values that are numbers (R663, R664). -/
opaque Config.freeNat : Nat → Nat

/-- The drift of the wall clock over one tick, in ns, before it is held within 50 ppm (R614). -/
opaque Config.wallDrift : Nat → Int

/-- The 64-bit drive identity before it is made non-zero (R665). -/
opaque Config.identityRaw : Nat

/-- The drive identity: any 64-bit number but 0 (R665). (log 8 DESIGN CHOICE) -/
def Config.identity : Nat := Config.identityRaw % (2 ^ 64 - 1) + 1

/-- Length and characters of the serial number, before they are held to what R665 states. -/
opaque Config.serialLen : Nat
opaque Config.serialChar : Nat → Nat

/-- The serial number: 1 to 16 printable ASCII characters (R173, R665). -/
def Config.serialNumber : Bytes := (List.range (1 + Config.serialLen % 16)).map fun i => BitVec.ofNat 8 (0x20 + Config.serialChar i % 0x5F)

/-- How many requests wait at the clamp of an island before its senders meet back-pressure (R17). (log 130 DESIGN CHOICE) -/
opaque Config.clampRoom : Nat → Nat

/-- Die and module revisions of `SYS_ID` (R665). -/
opaque Config.dieRev : Byte
opaque Config.modRev : Byte

/-- The MAC address programmed at manufacture, before it is held to 48 bits (R421). -/
opaque Config.macRaw : Nat

/-- The MAC address of port A: any that leaves room for port B's (R421). -/
def Config.macA : Nat := Config.macRaw % (2 ^ 48 - 1)

/-- Port B's address is one higher (R421). -/
def Config.macB : Nat := Config.macA + 1

/-- The device secret from which root keys and the key pair derive (R455, R457). -/
opaque Config.deviceSecret : Bytes

/-- The fingerprint key, drawn at manufacture (R291): 128 bits, byte by byte. -/
opaque Config.fpKeyByte : Nat → Byte
def Config.fpKey : Bytes := (List.range 16).map Config.fpKeyByte

/-- The public keys that verify images, by key slot (R544). -/
opaque Config.signKey : Nat → Nat × Nat

/-- The revision of the boot ROM's own image, reported when no slot header is readable (R588). -/
opaque Config.romRevision : Nat

/-- The virtual address of the doorbell region (R94). -/
opaque Config.doorbellBase : Nat

/-- Whether index pages have no room left above the guaranteed total charge (R295), by the total charge. -/
opaque Config.indexFull : Nat → Bool

/-- Whether an index page has room for more than eight entries: so many, of a total index charge (R292, R293). -/
opaque Config.pageRoom : Nat → Nat → Bool

/-- Directory pages of a HASHED key space with so many buckets, interior nodes of an ORDERED one (by its ID) with so many leaves, and the
levels of its tree below the nodes that stay in DRAM (R289). -/
opaque Config.dirPages : Nat → Nat
opaque Config.interiorPages : Nat → Nat → Nat
opaque Config.levelsBelow : Nat → Nat → Nat

/-- Nanoseconds beyond 20 minutes that the read of the media takes in a rebuild that began at a life clock; the progress of a state of the
rebuild, by state and time in the rebuild (R329, R330). -/
opaque Config.rebuildRead : Nat → Nat
opaque Config.rebuildPct : Nat → Nat → Nat

/-- Whether the DRAM value cache takes a value that has been read from flash, by record ID and life clock: no rule says what it keeps
(R32, R35). (log 42 DESIGN CHOICE) -/
opaque Config.valueKept : Nat → Nat → Bool

/-- The DRAM address, in lines of 64 bytes, of a line of a region (by region code and line in it), and the bank and row of a line: the spec
gives neither the placement of the regions nor the devices' geometry (R486, R492, R499). (log 127 DESIGN CHOICE) -/
opaque Config.dramLine : Nat → Nat → Nat
opaque Config.dramPlace : Nat → Nat × Nat

/-- The DRAM beats of one bit in error that were corrected since the last patrol, by channel and subchannel, per draw (R487, R489). -/
opaque Config.correctedBeats : Nat → List (Fin 4 × Fin 2)

/-- The measured 12 V input power at a life clock, in 0.1 W: the highest 1 ms average of the last second and the average of the last 100 ms
(R537); the case sensor at a life clock, in 0.1 degrees (R645). -/
opaque Config.inputPower : Nat → Nat × Nat
opaque Config.caseTemp : Nat → BitVec 16

/-- Whether the drive retrains a lane that degrades (R575, R600): by the count of open values used. -/
opaque Config.fecRetrains : Nat → Bool

/-- The sector of a firmware download that never compares equal, if one does (R565); the blocks that fail to erase in a sanitize, as locators
of their codewords (R584): by the count of open values used. -/
opaque Config.sectorFails : Nat → Option Nat
opaque Config.sweepFails : Nat → List (BitVec 48)

/-- The step of a live activation, by action and time since its start (R568, R590); progress of the erase of a sanitize (R587): no rule gives
a formula. -/
opaque Config.liveStep : Nat → Nat → Nat
opaque Config.erasePct : Nat → Nat → Nat

/-- Whether the temperature of a channel's devices has moved by 10 C between two readings of the life clock (R506). -/
opaque Config.dramTempMoved : Nat → Nat → Nat → Bool

/-- Whether a value of less than 16 KiB in the value cache has a line on a DRAM channel, by record ID and channel (R37, R486). -/
opaque Config.valueOn : Nat → Nat → Bool

/-- The voltage of the bank bus while the bank charges, by life clock (R405, R417). -/
opaque Config.bankRamp : Nat → Nat

/-- How live bytes and the age of the last write weigh in the choice of a victim in ENDURANCE and ARCHIVE (R365), and the progress of a
scrubbing pass in percent, by passes made and time in the pass (R385): no rule gives a formula. -/
opaque Config.gcWeight : Nat → Nat → Nat
opaque Config.passPct : Nat → Nat → Nat

/-- The offset of a read threshold: of a die's threshold table as its last calibration set it, by die, number of calibrations, entry, cell
mode and threshold (R345). -/
opaque Config.threshold : Nat → Nat → Nat → Nat → Nat → Int

/-- Whether a codeword that the drive reads for itself decodes at steps 1 to 3 of the ladder, and how often such reads reached a step, by
draw and die or member (R344): 0 step 1, 1 step 2, else step 3. -/
opaque Config.ownRead : Nat → Nat → Nat
opaque Config.ownReads : Nat → Nat → Nat → Nat

/-- Fields of the drive's RoCE packets that no rule gives: of the IP and UDP headers, 0 identification, 1 the flag Don't Fragment, 2 the time to
live, 3 the flow label, by PSN, 4 the UDP source port, by QP number; of the BTH by opcode and PSN, Solicited Event and AckReq (R428, R438). -/
opaque Config.ipField : Nat → Nat → Nat
opaque Config.bthOpen : Nat → Nat → Nat

/-- The bytes of a frame that had gone out when the transmit buffer ran dry inside it, by life clock (R437). -/
opaque Config.cutAt : Nat → Nat

/-- Whether another module of the ring holds CASC_SYNC low at a life clock (R317). -/
opaque Config.syncHeld : Nat → Bool

/-- FEC codewords corrected and not corrected before a frame, by port and bytes received before it (R451). -/
opaque Config.fecWords : Nat → Nat → Nat × Nat

/-- How long the retirement of a DRAM channel takes, in nanoseconds, by the life clock of its start (R502). -/
opaque Config.retireNs : Nat → Nat

/-- The first segment ID issued after manufacture (0) or after a SANITIZE (its count) (R340). -/
opaque Config.firstSegment : Nat → Nat

/-- The check value of a pack or chunk, by the bytes of it that a record holds: no rule gives its computation (R407). -/
opaque Config.partCheck : Bytes → BitVec 32

/-- The state of a GCM or digest computation in an exported context, by its number and units done (R475); the header of a record, by record
ID, version and length of the value (R469, R663); the bytes of an index page, of the map journal and of the hold-up area, by kind, number and
life clock (R469): internal to the drive. -/
opaque Config.ctxState : Nat → Nat → Bytes
opaque Config.recHead : Nat → Nat → Nat → Bytes
opaque Config.asideBytes : Nat → Nat → Nat → Bytes

/-- The overhead of a record in a pack before it is held to 128 bytes (R660), by record ID. -/
opaque Config.packOverhead : Nat → Nat

/-- The codes of the tenant event's kind byte, which the spec leaves open: 0 installed, 1 replaced, 2 dropped (R600).
(log 41 DESIGN CHOICE) -/
opaque Config.tenantKind : Nat → Byte

/-- The endpoint UUID, the version entry of each MCTP message type and the command-set number that control messages report: the
spec gives none (R635). -/
opaque Config.uuid : Bytes
opaque Config.mctpVersion : Byte → BitVec 32
opaque Config.commandSet : BitVec 16

end Sys2Proof
end

