-- ==== Sys2Proof/Machine/StCry.lean ====
section
/-! DEFINITION. State of the crypto island, of the register digest contexts and of the DRAM controller (12, 13). -/

namespace Sys2Proof.Machine

/-- A register digest context (R477, R478, R485). `msg` is the message so far. -/
structure DigCtx where
  alg   : Nat
  slot  : Nat
  busy  : Bool
  done  : Bool
  isOpen : Bool
  clr   : Bool
  err   : Bool
  wlo   : Nat
  whi   : Nat
  msg   : Bytes
  key   : Bytes
  res   : Bytes
  deriving DecidableEq, Repr

/-- Where a context is: waiting for its first core, on a core (0-15 AES, 16-23 digest), saved on the engine from a core, exported to a
record of the export area in DRAM. -/
inductive Place where
  | waiting | running (core : Nat) | saved (core : Nat) | exported (slot : Nat)
  deriving DecidableEq, Repr

/-- A cipher or digest context (R473-R476): number (the fetch order of its command, or a register context), class, where it is, the life
clock of its placement on its core, the 4 KiB units it had done before (its position), and, once it is to leave its core, the life clock of
the unit boundary at which it does. -/
structure CryCtx where
  id     : Nat
  cls    : Nat
  digest : Bool
  place  : Place
  since  : Nat := 0
  units  : Nat := 0
  due    : Option Nat := none
  deriving DecidableEq, Repr

/-- A record of the context export area (R476): its index, the export count of its nonce, its 256 bytes. -/
structure ExportRec where
  slot  : Nat
  count : Nat
  bytes : Bytes
  deriving DecidableEq, Repr

/-- The crypto island (R455-R484). `lost` marks keys wiped by a tamper alarm and not yet restored;
`busErrs` holds core and life clock of bus errors; `p384Bad` a failed P-384 self-test at boot; `exportKey` names the draw of the
context export key, `records` the export area under it; `blobHeld` is the staged blob of a LOAD that waits for keys. -/
structure Cry where
  vauth    : Bool
  xts128   : Bool
  aesFence : Nat
  digFence : Nat
  alarm    : Nat
  katRun   : Bool
  katAt    : Option Nat
  ctxs     : List CryCtx
  preempts : Nat
  exports  : Nat
  authF    : Nat
  blobF    : Nat
  blobSer  : Nat
  blobBusy : Bool
  blobReason : Nat
  blobStatus : Nat
  lost     : Bool
  busErrs  : List (Nat × Nat)
  p384Bad  : Bool
  exportKey : Nat
  exportCnt : Nat
  records  : List ExportRec
  blobHeld : Option Bytes
  dig      : List DigCtx
  deriving DecidableEq, Repr

/-- A DRAM channel (R497-R511). States as `DMC_CHSTAT` gives them: 0 running, 1 replaying, 2 training, 3 switching speed, 4 retiring (until
life clock `retEnd`), 5 retired. Speeds: 1 3,200, 2 4,800, 3 6,400. `pending` is a speed asked for and not yet reached (0 none), `target` the speed of the
training or switch in progress, `stored` the stored training as a mask, `fails` the failed replays in a row, `ueAt` the life clocks
of the uncorrectable lines of the last hour. -/
structure Dram where
  state   : Nat
  pending : Nat
  target  : Nat
  stored  : Nat
  speed   : Nat
  ce      : Nat
  ue      : Nat
  par     : Nat
  replays : Nat
  replayF : Nat
  trains  : Nat
  errAddr : Nat
  errSub  : Bool
  errReg  : Nat
  errVal  : Bool
  fails   : Nat
  ueAt    : List Nat
  trainedAt : Nat
  retEnd  : Option Nat := none
  deriving DecidableEq, Repr

/-- The page-policy hint of a request (R494). -/
inductive PageHint where
  | keepOpen | close | none
  deriving DecidableEq, Repr

/-- What an island asks of the DRAM: direction, priority class (0 host-path reads, 1 the rest of the fast path, 2 background), hint and
region code (R491, R494, R499). -/
structure DramUse where
  write  : Bool
  cls    : Nat
  hint   : PageHint
  region : Nat
  deriving DecidableEq, Repr

/-- A request for a 64-byte line, with its byte mask and the life clock of its arrival; `urgent` a write that a read waits for (R491,
R496). -/
structure DramReq where
  write  : Bool
  cls    : Nat
  hint   : PageHint
  line   : Nat
  mask   : Nat
  since  : Nat
  urgent : Bool
  deriving DecidableEq, Repr

/-- An open row of a bank, with its last access and the hint it stays open under (R494). -/
structure DramRow where
  bank : Nat
  row  : Nat
  last : Nat
  hint : PageHint
  deriving DecidableEq, Repr

/-- A channel's read and write queue, oldest first, the requests that wait for room in them, whether writes drain, the open rows, the
reads served by forwarding (R491-R496), the retry buffer, and the subchannels (`true` for B) that stopped for a replay (R497). -/
structure DramQueue where
  rq       : List DramReq
  wq       : List DramReq
  held     : List DramReq
  draining : Bool
  rows     : List DramRow
  fwd      : Nat
  retry    : List DramReq
  stopped  : List Bool
  deriving DecidableEq, Repr

/-- The DRAM controller (R486-R511). `patrolLine` counts the lines of the patrol in progress. `vals` are the values that the DRAM value cache holds (record ID, length), longest unused first
(R32, R35). -/
structure Dmc where
  chans    : List Dram
  page     : Nat
  rtInt    : Nat
  patrol   : Bool
  patrolAt : Option Nat
  patrolPct : Nat
  patrolLine : Nat
  vals     : List (Nat × Nat)
  queues   : List DramQueue
  deriving DecidableEq, Repr

end Sys2Proof.Machine
end

