-- ==== Sys2Proof/Machine/StEvr.lean ====
section
/-! DEFINITION. State of the event sources, the recorder and the clocks (17). -/

namespace Sys2Proof.Machine

/-- The state of an event source (R592). Severity 0 INFO, 1 WARN, 2 CRITICAL. -/
structure Src where
  count : Nat
  en    : Bool
  sev   : Nat
  latch : Bool
  toRec : Bool
  alert : Bool
  cqe   : Bool
  deriving DecidableEq, Repr

/-- A recorder record (R601), its CRC and valid mark left out: they are computed when it is read. -/
structure EvRec where
  seq    : Nat
  life   : Nat
  wall   : Nat
  src    : Nat
  sev    : Nat
  frozen : Bool
  parked : Bool
  count  : Nat
  data   : Bytes
  deriving DecidableEq, Repr

/-- The event sources and the recorder (R592-R612, R617). `srcs` holds the sources that differ from the catalogue's
defaults. `front` and `carousel` hold records oldest first. `freeze` is the life clock of the last EVFREEZE, `lift` how
the last freeze ended, `lostNew` records lost since the last EVR_LOST record, `fullAt` the life clock of the last routed
HQ_CTX_FULL. -/
structure Evr where
  srcs     : List (Nat × Src)
  front    : List EvRec
  carousel : List EvRec
  nextSeq  : Nat
  lost     : Nat
  lostNew  : Nat
  birth    : Nat
  freeze   : Option Nat
  lift     : Nat
  fullAt   : Option Nat
  deriving DecidableEq, Repr

/-- The always-on clocks (R367, R613, R614). Times are in ns; `installed` is the installed time in seconds with `instNs`
its fraction and `instJour` its journalled value. `wallErr` and `wallRun` bound the wall clock's error: ns gained or lost over ns run since it was set. -/
structure Clocks where
  life      : Nat
  lifeJour  : Nat
  wallSet   : Bool
  wall      : Nat
  wallRun   : Nat
  wallErr   : Int
  wallBack  : Bool
  timeErr   : Bool
  installed : Nat
  instNs    : Nat
  instJour  : Nat
  deriving DecidableEq, Repr

end Sys2Proof.Machine
end

