-- ==== Sys2Proof/Machine/StIdx.lean ====
section
/-! DEFINITION. State of the index island and of the drive cascade (08). -/

namespace Sys2Proof.Machine

/-- A CAM tile (R297, R303-R308, R331): fenced, a role or pre-filter change in progress, pre-filter settings, the 64-bit counters of
search slots, update slots, idle slots and groups energised. `ahead` counts slots that are counted before the tick that holds them,
`todo` the row writes that a change in progress has still to make. -/
structure Tile where
  fenced : Bool
  pend   : Bool
  pfEn   : Bool
  pos    : Nat
  srch   : Nat
  upd    : Nat
  idle   : Nat
  grpe   : Nat
  ahead  : Nat
  todo   : Nat
  deriving DecidableEq, Repr

/-- A valid index-role row (R284, R288, R299): where it stands, its key-space ID and fingerprint, and the associated word, the DRAM
address of an index entry. -/
structure CamRow where
  tile : Nat
  row  : Nat
  ks   : Nat
  fp   : Nat
  addr : Nat
  deriving DecidableEq, Repr

/-- A pattern in the rows `row` of the four tiles of a pattern quad (R300): that of watch `id`, or of the SEARCH in search slot `id`. -/
structure PatternRow where
  quad   : Nat
  row    : Nat
  search : Bool
  id     : Nat
  ks     : Nat
  pat    : Bytes
  deriving DecidableEq, Repr

/-- A running SEARCH and its search slot (R311): the pattern quad that holds it and its pattern block. -/
structure SearchSlot where
  slot : Nat
  quad : Nat
  ks   : Nat
  pat  : Bytes
  sq   : Nat
  ord  : Nat
  deriving DecidableEq, Repr

/-- A page of the inner doll (R285, R292, R293): a bucket covers the fingerprints that agree with `fp` above its low `bits` bits, a leaf
the keys from `key` up to the next leaf. `dirty`: the copy in DRAM is newer than the one in flash. -/
structure IdxPage where
  ks    : Nat
  no    : Nat
  fp    : Nat
  bits  : Nat
  key   : Bytes
  dirty : Bool
  deriving DecidableEq, Repr

/-- A page of the DRAM index cache (R284): page `no` of a key space, `part` of its chain, and its frame of 16 KiB. -/
structure CachedPage where
  ks    : Nat
  no    : Nat
  part  : Nat
  frame : Nat
  deriving DecidableEq, Repr

/-- The index island (R284-R313, R327-R331). `cam` holds the index rows by tile and row, `prows` the pattern rows, `installs` tile and
life clock of the deferrable row writes of the last 64 slots, `pnext` the roles of a role change in progress. `pages` are the index
pages, but for the one page of a key space that has never split; `cached` those in DRAM, least recently used first; `lost` the
unrecoverable ones with their locators. `rebuild` lists key spaces waiting for or in their rebuild, the first one being built; `full`
lists those of them that a full rebuild builds, `rbAt` and `rbEnd` are the life clocks at which the read of the media began and ends. -/
structure Idx where
  tiles    : List Tile
  pquad    : Nat
  pnext    : Option Nat
  updCap   : Nat
  cfgErr   : Bool
  fwMatch  : Bool
  cam      : List CamRow
  prows    : List PatternRow
  installs : List (Nat × Nat)
  pages    : List IdxPage
  pageSeq  : Nat
  cached   : List CachedPage
  lost     : List (Nat × Nat × Nat)
  camHit   : Nat
  dramHit  : Nat
  flashRd  : Nat
  slots    : List SearchSlot
  rebuild  : List Nat
  full     : List Nat
  rbAt     : Nat
  rbEnd    : Nat := 0
  deriving DecidableEq, Repr

/-- A pass 1 frame (R318). -/
structure Pass1 where
  roll     : Bool
  seq      : Nat
  mismatch : Bool
  slots    : Nat
  deriving DecidableEq, Repr

/-- A pass 2 frame (R318). -/
structure Pass2 where
  roll     : Bool
  void     : Bool
  seq      : Nat
  mismatch : Bool
  slots    : Nat
  win      : Nat
  valid    : Bool
  deriving DecidableEq, Repr

/-- A frame on the ring: in pass 1 or in pass 2. -/
inductive RingFrame where
  | collect (f : Pass1)
  | result (f : Pass2)
  deriving DecidableEq, Repr

/-- A window in progress on the cascade ring (R317-R322): the FIND fixed at its start, none in a roll call; `sent` the pass 2 frame
that the leader has sent. -/
structure Arb where
  find     : Option (Nat × Nat)
  sent     : Option Pass2
  deriving DecidableEq, Repr

/-- The cascade (R314-R326, R332). `find` lists FINDs that wait for arbitration in order; `drives` says that the module drives
CASC_CLK, `due` that the leader owes a roll call, `headVoids` counts the voids of the first FIND; `headAt` is the life clock since which it
waits without an arbitration, `winAt` that of the last window; `mo` is the last frame sent on CASC_MO. -/
structure Csc where
  en       : Bool
  clkMst   : Bool
  high     : Bool
  clkOk    : Bool
  inRing   : Bool
  sampling : Bool
  drives   : Bool
  roll     : Nat
  lat      : Nat
  dupMst   : Bool
  dupSlot  : Bool
  voided   : Bool
  seqMm    : Bool
  syncTo   : Bool
  syncMs   : Nat
  arb      : Nat
  won      : Nat
  supp     : Nat
  voids    : Nat
  lastSeq  : Nat
  find     : List (Nat × Nat)
  run      : Option Arb
  headVoids : Nat
  headAt   : Nat
  winAt    : Nat
  due      : Bool
  mo       : Option RingFrame
  deriving DecidableEq, Repr

end Sys2Proof.Machine
end

