-- ==== Sys2Proof/Machine/StMed.lean ====
section
/-! DEFINITION. State of flash media management and of the hold-up bank (09, 10). -/

namespace Sys2Proof.Machine

/-- Cell modes (R341). -/
inductive Cell where
  | qlc | archive | buffer | index
  deriving DecidableEq, Repr

/-- How far the reclaiming of a segment has come (R359): open for writing, sealed, chosen as a source, copied, new locators
journalled, reclaim record journalled. -/
inductive SegState where
  | opened | sealed | collecting | copied | mapped | reclaiming
  deriving DecidableEq, Repr

/-- A further segment that goes on with a record too long for one frame: its ID, its frame, the channel its layout lacks, its slices'
swaps. -/
structure Extent where
  id    : Nat
  frame : Nat
  lacks : Option Nat
  swaps : List (Nat × Nat)
  deriving DecidableEq, Repr

/-- A programmed frame that holds no segment's live content: one left behind by a segment that moved whole, still to be erased, or one of
those set aside (R38). `more` are the frames of the segments that went on with it. -/
structure OldFrame where
  frame : Nat
  cell  : Cell
  lacks : Option Nat
  swaps : List (Nat × Nat)
  more  : List Extent := []
  deriving DecidableEq, Repr

/-- A segment (R340, R341): 20-bit ID, bytes placed, frame, cell mode, the channel that its one-channel-lost layout lacks, owner key space
of an anchored segment. `swaps` names the slices (channel * 4 + plane) that another block than the frame's own serves (R339), `more` the
segments that go on with a record longer than one. `into` is the segment that takes its live records, none when it moves whole into a new
frame, which leaves `old`; `cold` one that wear levelling moves. -/
structure Segment where
  id     : Nat
  used   : Nat
  frame  : Nat
  cell   : Cell
  lacks  : Option Nat
  owner  : Option Nat
  state  : SegState
  swaps  : List (Nat × Nat) := []
  more   : List Extent := []
  into   : Option Nat := none
  cold   : Bool := false
  old    : Option OldFrame := none
  deriving DecidableEq, Repr

/-- A block (R338, R364, R366): its erase count, its wear in tenths, retired. -/
structure Block where
  erases : Nat
  wear   : Nat
  bad    : Bool
  deriving DecidableEq, Repr

/-- A physical die (R371-R373, R385). States: 0 active, 1 spare not in use, 2 spare taking over, 3 retired. `ret` counts retired
blocks by plane, `table` names the offsets of its threshold table (R345), which each calibration sets anew, `entry` is the calibrated entry
found since the last full pass, `calAt` the installed time of the last calibration, `lad` counts reads that reached steps 2 to 6, `failed4`
holds block and life clock of codewords that failed step 4, `silent` counts retrains in a row after which it did not respond, `gone` is the
wear (mean, highest) that it had when it was retired. -/
structure Die where
  state   : Nat
  pos     : Nat
  ret     : List Nat
  table   : Nat
  entry   : Option Nat
  calAt   : Nat
  lad     : List Nat
  pgmF    : Nat
  ersF    : Nat
  failed4 : List (Nat × Nat)
  silent  : Nat
  gone    : Option (Nat × Nat)
  deriving DecidableEq, Repr

/-- A flash channel (R334, R375, R376): 0 running, 1 reset or retraining, 2 lost; vacant positions, retrains, failed retrains in
a row. -/
structure Channel where
  state     : Nat
  spareUsed : Bool
  vacant    : List Nat
  retrains  : Nat
  fails     : Nat
  deriving DecidableEq, Repr

/-- Flash media (R333-R385). `dies` holds the dies (channel * 16 + die) that differ from their factory state, `chans` likewise,
`blocks` the blocks that have been erased or retired, `swept` how often a sanitize has erased every block. `nextSeg` counts the segment IDs
issued and `segBase` the sanitize passes, which choose the first ID. `aside` holds the frames set aside that have been programmed, and
`asideAt` the bytes that each kind of them has taken (R38), `asideUnits` their enciphered data units by kind and the two fields of the tweak
(R469). `marks` lists segments marked for refresh (R349), `due` those to be rewritten
for a vacancy or a lost channel (R373, R375). Sizes of the yo-yo buffer are in GiB; `gcWrote` and `hostHour` count bytes
since `hourAt`, and `bufAt` is the life clock of the last buffer write; `atFloor` says that writes wait at the floor (R365). `scrub`: a pass
has begun and not ended, at life clock `scrubAt`; it stands at segment `scrubSeg` and has refreshed `refPass` segments (R380). `askAt` is the
installed time at which 12 V was asked for a scrub, or of the last deferral (R382). `cal` names the draws of the last pass's calibrated
entries. -/
structure Med where
  chans     : List (Nat × Channel)
  dies      : List (Nat × Die)
  blocks    : List (Nat × Block)
  swept     : Nat
  segs      : List Segment
  aside     : List OldFrame
  asideAt   : List Nat
  asideUnits : List ((Nat × Nat × Nat) × List Bytes)
  marks     : List Nat
  due       : List Nat
  nextSeg   : Nat
  segBase   : Nat
  chLost    : Option Nat
  capacity  : Nat
  target    : Nat
  actual    : Nat
  frames    : Nat
  gcState   : Nat
  gcWrote   : Nat
  hostHour  : Nat
  hourAt    : Nat
  bufAt     : Nat
  atFloor   : Bool
  hostW     : Nat
  paced     : List (Nat × Nat)
  bucket    : Nat
  pacing    : Bool
  near      : Bool
  scrubIv   : Nat
  scrub     : Bool
  scrubAt   : Nat
  scrubSeg  : Nat
  refPass   : Nat
  askAt     : Option Nat
  defer     : Nat
  deferLife : Nat
  workAt    : Nat
  lastPass  : Nat
  passWall  : Nat
  passes    : Nat
  refLast   : Nat
  refLife   : Nat
  deriving DecidableEq, Repr

/-- A section of the hold-up bank (R401-R404, R417): 0 in service, 1 being measured, 2 isolated. CAP is in 10 uF, ESR in
milliohm, VC in 0.25 V. `dt` is the time in microseconds from which CAP was computed, `low` counts rounds in a row with a low V_c
(cause 3). -/
structure Section where
  state : Nat
  cause : Nat
  cap   : Nat
  esr   : Nat
  vc    : Nat
  dt    : Nat := 0
  low   : Nat
  deriving DecidableEq, Repr

/-- The bank and protected staging (R394-R405, R417). `round` is the section under measurement, `again` a round that is due
while another runs, `first` whether the first round after charging is still to come, `early` that the round in progress began while the
bank charged. -/
structure Bank where
  sects     : List Section
  en        : Bool
  lowE      : Bool
  overE     : Bool
  chg       : Bool
  cmdErr    : Bool
  stageCap  : Nat
  emeas     : Nat
  round     : Option Nat
  measuring : Bool
  vcNow     : Nat
  again     : Bool
  first     : Bool
  early     : Bool := false
  lastStart : Nat
  lastEnd   : Option Nat
  bankV     : Nat
  waits     : Nat
  unprot    : Nat
  holdUps   : Nat
  sealOk    : Bool
  ckptOk    : Bool
  flushMs   : Nat
  torn      : Bool
  dropped   : Nat
  replayMs  : Nat
  deriving DecidableEq, Repr

end Sys2Proof.Machine
end

