-- ==== Sys2Proof/Machine/StNet.lean ====
section
/-! DEFINITION. State of the Ethernet ports and of the jack (11). -/

namespace Sys2Proof.Machine

/-- A receive filter entry (R430, R453). -/
structure Filter where
  dmac   : Nat := 0
  etype  : Nat := 0
  dscp   : Nat := 0
  pcp    : Nat := 0
  vid    : Nat := 0
  udp    : Nat := 0
  cls    : Nat := 0
  untag  : Bool := false
  udpEn  : Bool := false
  dscpEn : Bool := false
  etypeEn : Bool := false
  pcpEn  : Bool := false
  vidEn  : Bool := false
  dmode  : Nat := 0
  valid  : Bool := false
  deriving DecidableEq, Repr

/-- A resolved or resolving neighbour (R424): address, MAC once known, tries left, the life clock of the last request. -/
structure Neigh where
  ip    : Nat
  mac   : Option Nat
  tries : Nat
  asked : Nat := 0
  deriving DecidableEq, Repr

/-- What a link restart takes from `NETx_LINKCFG` (R418, R419, R452). -/
structure LinkSet where
  anEn  : Bool
  adv   : Nat
  fec25 : Bool
  mode  : Nat
  deriving DecidableEq, Repr

/-- Link configuration and state of a port (R418-R422, R426, R453). `run` is the configuration of the last link restart. -/
structure Link where
  anEn   : Bool
  adv    : Nat
  fec25  : Bool
  mode   : Nat
  up     : Bool
  train  : Bool
  fecOn  : Bool
  res    : Nat
  cfgErr : Bool
  downs  : Nat
  run    : LinkSet
  deriving DecidableEq, Repr

/-- Flow control and cut-through of a port (R434-R437): `sent` says
whether the drive holds its partner, `held` whether a received PAUSE holds the drive, for how many quanta. Life clocks: `heldAt` of the
last frame that holds the drive, `heldFrom` since which it is held, `sentAt` of the drive's last one, `stormAt` of the last pause storm,
`stepAt` of the last underrun or change of the step. -/
structure Flow where
  fc      : Nat
  prio    : Nat
  quanta  : Nat
  high    : Nat
  low     : Nat
  sent    : Bool
  held    : Option Nat
  heldAt  : Nat
  heldFrom : Nat
  sentAt  : Nat
  stormAt : Nat
  stepAt  : Nat
  storm   : Bool
  ctEn    : Bool
  ctMin   : Nat
  ctCur   : Nat
  deriving DecidableEq, Repr

/-- A port (R418-R437, R451-R453). Statistics and filter hits are sparse tables of counters; `half` the half-range flags;
`echo` the second and how many echo requests it has answered, `out` the frames handed to the link, `txq` those that wait in the transmit
buffer while flow control holds the drive, oldest first; `rxq` the received RoCE frames with their classes and whether their ICRC is good,
oldest first, `rxTurn` the class served last (R431). -/
structure PortSt where
  link    : Link
  maxFrm  : Nat
  ip4     : Nat
  ip6     : Nat
  nhMac   : Nat
  tagEn   : Bool
  pcp     : Nat
  vid     : Nat
  cnpDscp : Nat
  dscp    : Nat
  flow    : Flow
  rxDef   : Nat
  filters : List (Nat × Filter)
  hits    : List (Nat × Nat)
  stats   : List (Nat × Nat)
  half    : Nat
  neighs  : List Neigh
  echo    : Nat × Nat
  out     : List Bytes
  txq     : List Bytes
  rxq     : List (Nat × Bytes × Bool) := []
  rxTurn  : Nat := 0
  deriving DecidableEq, Repr

/-- The jack (R447-R450): wake code, arming, lock, counters, bad codes in the last second, lane A0 held, its link up. -/
structure Jack where
  code    : Nat
  arm     : Bool
  lock    : Bool
  bad     : Nat
  ok      : Nat
  badRun  : List Nat
  onLane  : Bool
  link    : Bool
  deriving DecidableEq, Repr

end Sys2Proof.Machine
end

