-- ==== Sys2Proof/Machine/StPwr.lean ====
section
/-! DEFINITION. State of the operating modes, update and service, the management bus, register paths, islands and the
configuration flash (14, 15, 16, 18, 19). -/

namespace Sys2Proof.Machine

/-- A mode change in progress (R521, R537): target, and the SETMODE command that waits for it, if one does. `drained` says that
step 4 of a park has passed (R530). -/
structure Change where
  target : Nat
  cmd    : Option (Nat × Nat)
  byPwr  : Bool
  before : Nat
  drained : Bool
  drainAt : Nat := 0
  deriving DecidableEq, Repr

/-- The operating modes and power (R512-R537). Mode and cap codes are those of the registers. `capEff` is the effective cap in
force, `roWant` a drive cause of READ-ONLY that takes effect at the next epoch, `cmdQ` the `PWR_CMD` requests (target, cap) that
wait for the change in progress, `shut` that the drive waits in RESET below the
warning limit, `resume` the mode a resume from PARKED goes to, `wakeOut` the installed time in nanoseconds until which the drive holds WAKE# low (R532),
`hotAt` the life clock at which the case sensor last stood above 5 degrees below its warning limit (R518). -/
structure Pwr where
  cur      : Nat
  last     : Nat
  change   : Option Change
  roCause  : Nat
  capSel   : Nat
  capTherm : Nat
  capEff   : Nat
  roWant   : Nat
  cmdQ     : List (Nat × Nat)
  shut     : Bool
  resume   : Option Nat
  cmdErr   : Bool
  cmdDet   : Nat
  cmdStat  : Nat
  bootMode : Nat
  autoIdle : Nat
  wakeSrc  : Nat
  share    : Bool
  pinEn    : Bool
  alarm    : Nat
  why      : Nat
  req      : Bool
  good     : Bool
  mainOk   : Bool
  aux      : Bool
  resetN   : Bool
  temp     : BitVec 16
  peak     : Nat
  avg      : Nat
  trans    : Nat
  idleAt   : Nat
  wakeOut  : Option Nat
  hotAt    : Nat := 0
  deriving DecidableEq, Repr

/-- A live action (R575, R578, R589). `op` is 1 FENCE, 2 RELEASE, 3 RESET for an island; `state` 0 running, 1 done, 2 failed, 3
waiting for its turn; `host` when a register write asked for it. -/
structure Action where
  serial : Nat
  code   : Nat
  op     : Nat
  target : Nat
  state  : Nat
  host   : Bool
  start  : Nat
  stop   : Nat
  stall  : Nat
  deriving DecidableEq, Repr

/-- A self-test record (R580-R583). -/
structure SelfTest where
  kind  : Nat
  state : Nat
  part  : Nat
  unit  : Nat
  loc   : BitVec 48
  read  : Nat
  step2 : Nat
  waited : Nat
  pct   : Nat
  start : Nat
  stop  : Nat
  deriving DecidableEq, Repr

/-- Update, sanitize, self-test and live service (R563-R591). Stages are the codes of `UPD_STATE.STAGE`. `fresh` says that no
download has begun since the stage left VERIFIED or since BOOT; `cause` why a rollback runs and `falls` counts boot ROM
fallbacks. `tests` holds the last self-tests, newest first, `tested` that the newest ran since the last reset or was ended by it. `cores` and `spares` are roles as of BOOT and of the replacements since, `fenced` the
fenced islands, `cfgAt` the life clock of the last write of the configuration store. `fallen` holds the boot ROM fallbacks not yet
recorded (revision abandoned, cause), `bootRun` the flags of `SYS_BOOT` once firmware runs in BOOT, `late` the stage 1 preload records
of this BOOT (offset, mask, value), `timeLost` that it could not restore the installed time. `clamped` holds the requests of commands that wait at the clamps of islands out of service: island, SQ,
fetch order, first come first (R17, R577). -/
structure Upd where
  stage     : Nat
  step      : Nat
  cmdErr    : Bool
  trialEnd  : Option Nat
  stall     : Nat
  fresh     : Bool
  cause     : Nat
  falls     : Nat
  tests     : List SelfTest
  tested    : Bool
  sanState  : Nat
  sanBlock  : Bool
  sanStep   : Nat
  sanPct    : Nat
  sanCount  : Nat
  sanStart  : Nat
  sanEnd    : Nat
  sanRet    : Nat
  nonce     : Bytes
  actions   : List Action
  actSerial : Nat
  actErr    : Bool
  cores     : BitVec 32
  spares    : BitVec 32
  fencedCores : BitVec 32
  resets    : List (Nat × Nat)
  fenced    : List Nat
  inReset   : List Nat
  cfgAt     : Option Nat
  fallen    : List (Nat × Nat)
  bootRun   : Option Nat
  late      : List (Nat × Nat × Nat)
  timeLost  : Bool := false
  clamped   : List (Nat × Nat × Nat)
  deriving DecidableEq, Repr

/-- The sealed management session (R640): `key` holds both session keys, `last` the life clock of its OPEN or its last SEALED message. -/
structure Session where
  isOpen    : Bool
  id        : Nat
  tenant    : Nat
  key       : Bytes
  counter   : Nat
  challenge : Option Bytes
  last      : Nat
  deriving DecidableEq, Repr

/-- A message being assembled on the management bus (R635), by source EID and tag; `seq` is the sequence number of its last packet. -/
structure Assembly where
  tag  : Nat
  src  : Nat
  seq  : Nat
  body : Bytes
  deriving DecidableEq, Repr

/-- The management bus, LEDs and pins (R633-R640, R648). `secKept` is SECREQ as the configuration store keeps it, `resp` the packets of
the last response, sent again `tries` times, `out` everything sent, oldest first. `areaBusy` is the area being erased, `verified` the
slots that have verified since they were last written (R561, R562). -/
structure Mgmt where
  addr    : Nat
  secReq  : Bool
  secKept : Bool
  eid     : Nat
  session : Session
  pecErr  : Nat
  smbTo   : Nat
  mDrop   : Nat
  locate  : Bool
  ledDis  : Bool
  slotId  : BitVec 3
  asms    : List Assembly
  resp    : List Bytes
  tries   : Nat
  out     : List Bytes
  areaBusy : Option Nat
  verified : List Nat
  deriving DecidableEq, Repr

/-- The per-path copies of R651. `sel` is keyed by register offset; `latch` is the upper-half latch, keyed by offset;
`filt` and `tset` and `blob` are the staging words, keyed by register offset. `mute` lists the offsets at which an access of the path in
progress gets no answer within 8 us (R19). -/
structure PathRegs where
  sel     : List (Nat × Nat)
  staging : List (Nat × Nat)
  latch   : List (Nat × Nat)
  selErr  : Bool
  islDown : Bool
  selReg  : Nat
  isl     : Nat
  mute    : List Nat
  deriving DecidableEq, Repr

/-- A register write accepted by the management island and not yet in effect (R21-R24). -/
structure Posted where
  path : Path
  off  : Nat
  val  : Word
  deriving DecidableEq, Repr

/-- The register paths: copies for SMBus, admin and preload, and posted writes in issue order. -/
structure Sys where
  smbus   : PathRegs
  admin   : PathRegs
  preload : PathRegs
  posted  : List Posted
  deriving DecidableEq, Repr

/-- What survives everything: the configuration flash of R538 as a sparse list of bytes (an unlisted byte is erased, 0xFF),
and the count of blown anti-rollback fuses (R545). -/
structure Nv where
  flash : List Host.Cell
  fuses : Nat
  deriving DecidableEq, Repr

end Sys2Proof.Machine
end

