-- ==== Sys2Proof/Machine/StKvx.lean ====
section
/-! DEFINITION. State of the command island: key spaces and their records, commit records, command contexts, watches,
snapshots and the request-ID window (02, 04, 05, 06, 10). -/

namespace Sys2Proof.Machine

/-- Index kind, value class and retention class of a key space (R44, R47). -/
inductive IndexKind where
  | hashed | ordered
  deriving DecidableEq, Repr

inductive ValueClass where
  | mutable | anchored
  deriving DecidableEq, Repr

inductive Retention where
  | standard | archive
  deriving DecidableEq, Repr

/-- One access-list entry (R78): tenant, and rights as bits 0 READ, 1 WRITE, 2 ADMIN. -/
structure AclEntry where
  tenant : Nat
  rights : Nat
  deriving DecidableEq, Repr

/-- A key space (R44, R45, R56). A quota of 2^64 - 1 means unlimited. `slot` 0xFFFF names the drive-generated cipher key.
`wrapped` is the media key of R74 as it lies wrapped under the cipher key of the slot, `mediaKey` its copy in the key store, none while the
slot's cipher key does not unwrap it (R76, R463), and `xts128` stands for its cipher strength (R467). (log 9 DESIGN CHOICE) -/
structure KeySpace where
  id        : Nat
  index     : IndexKind
  vclass    : ValueClass
  retention : Retention
  slot      : Nat
  byteQuota : Nat
  keyQuota  : Nat
  acl       : List AclEntry
  label     : Bytes
  hwm       : Nat
  serial    : Nat
  mediaKey  : Option Bytes
  wrapped   : Bytes
  xts128    : Bool
  deriving DecidableEq, Repr

/-- One stored version of a key: its value record. `seg` and `off` place it (R64), `recId` is its record ID (R468),
`tagged` says that its units carry tags (R471), `born` and `died` are the turn serials of the commits that wrote and
replaced it; `died` is none for the current version. Flash holds `units`, the value's data units enciphered under the media key, each with
its tag (R467, R470, R471), and `head`, header and key enciphered under the metadata key (R469); `value` is what the engine deciphers. -/
structure Rec where
  ks      : Nat
  key     : Bytes
  version : Nat
  wtime   : Nat
  value   : Bytes
  digest  : Option Bytes
  seg     : Nat
  off     : Nat
  recId   : Nat
  tagged  : Bool
  born    : Nat
  died    : Option Nat
  units   : List (Bytes × Option Bytes) := []
  head    : List Bytes := []
  deriving DecidableEq, Repr

/-- An open snapshot (R69, R209, R210): `horizon` is the turn serial of its commit. -/
structure Snap where
  slot    : Nat
  gen     : Nat
  tenant  : Nat
  kss     : List Nat
  horizon : Nat
  deriving DecidableEq, Repr

/-- The cipher key of a host slot (R455, R463): `host` is false for a slot never loaded. -/
structure CipherSlot where
  slot       : Nat
  key        : Bytes
  persistent : Bool
  deriving DecidableEq, Repr

/-- An installed tenant (R77). -/
structure Tenant where
  id    : Nat
  key   : Bytes
  admin : Bool
  deriving DecidableEq, Repr

/-- The stored state of the drive: what commit records change and replay restores (R413). -/
structure Store where
  kss      : List KeySpace
  recs     : List Rec
  snaps    : List Snap
  snapGen  : Nat
  created  : Nat
  slots    : List CipherSlot
  driveKey : Bytes
  metaKey  : Bytes
  tenants  : List Tenant
  tokCur   : Bytes
  tokPrev  : Bytes
  epoch    : Nat
  fpKey    : Bytes
  deriving DecidableEq, Repr

/-- One change that a commit record makes to the stored state (R406). `move` gives records new places: record ID, segment,
offset (R361). -/
inductive Effect where
  | putRec (r : Rec)
  | delRec (ks : Nat) (key : Bytes)
  | ksCreate (k : KeySpace)
  | ksDelete (id : Nat)
  | ksModify (k : KeySpace)
  | snapOpen (s : Snap)
  | snapClose (slot : Nat)
  | slotLoad (c : CipherSlot) (deleting : List Nat)
  | slotDrop (slot : Nat)
  | tenantSet (t : Tenant)
  | tenantDrop (id : Nat)
  | tokenRotate (key : Bytes)
  | move (l : List (Nat × Nat × Nat))
  deriving DecidableEq, Repr

/-- An entry of the request-ID window (R246). `num` counts the entries created, `serial` is the turn serial of the write it records, none
for a class 0x1 outcome. -/
structure WinEntry where
  num     : Nat
  tenant  : Nat
  reqId   : Nat
  status  : Nat
  version : Nat
  life    : Nat
  serial  : Option Nat
  deriving DecidableEq, Repr

/-- The keys a command touches (R223, R224). -/
inductive KeySet where
  | none | keys (l : List (Nat × Bytes)) | spaces (l : List Nat) | unknown
  deriving DecidableEq, Repr

/-- A pack or a chunk that holds data of a commit, as its record names it (R407): the stored record, where it begins in its segment, and
its check value. -/
structure DataPart where
  recId : Nat
  seg   : Nat
  off   : Nat
  check : BitVec 32
  deriving DecidableEq, Repr

/-- A commit record of the map journal since the last checkpoint (R407). `sq` and `ord` name its command, `keys` what it
touches, `vals` are the record IDs of the values it stores, `parts` the packs and chunks that hold them; `lone` counts the 128-byte charges
that belong to no value (R391); `media` marks MEDIA_ACK, `cqeDone` a command whose CQE has been written. -/
structure CommitRec where
  serial    : Nat
  domain    : Nat
  strict    : Bool
  conn      : Nat
  sq        : Nat
  ord       : Nat
  keys      : KeySet
  effs      : List Effect
  vals      : List Nat
  parts     : List DataPart := []
  lone      : Nat
  admitted  : Bool
  media     : Bool
  journaled : Bool
  cqeDone   : Bool
  deriving DecidableEq, Repr

/-- A staged value (R27 step 7, R392): its key length and length, the bytes not yet programmed by chunk number with the
failed attempts of each (a value under 4 KiB has the one chunk 0), who owns it, and the operating mode as it was when its first chunk was
staged, which decides its route (R357). -/
structure Staged where
  recId  : Nat
  sq     : Nat
  ord    : Nat
  op     : Nat
  ks     : Nat
  keyLen : Nat
  len    : Nat
  chunks : List (Nat × Nat)
  serial : Option Nat
  mode   : Nat
  deriving DecidableEq, Repr

/-- A pack of small values (R26, R660): number, record IDs, bytes taken, the life clock at which its first value was placed. -/
structure Pack where
  id   : Nat
  recs : List Nat
  used : Nat
  since : Nat
  deriving DecidableEq, Repr

/-- What a command reports (R114, R136): status, the stage that failed (R268), CQE bytes 0x08-0x17, the result length, the
CQE flags SUPPRESSED and TOKEN, and the operation of a BATCH that caused the status (R184). -/
structure Res where
  status : Nat := 0
  stage  : Nat := 0
  b      : Bytes := []
  len    : Nat := 0
  flags  : Nat := 0
  idx    : Option Nat := none
  deriving DecidableEq, Repr

/-- What an RDMA READ of a command fetches. -/
inductive ReadFor where
  | key
  | list (op : Nat)
  | value (op : Nat)
  | outList
  | batch
  | pattern
  deriving DecidableEq, Repr

/-- An RDMA READ that a command needs; `issued` once the connection's limit of R90 let it go. -/
structure ReadReq where
  what   : ReadFor
  addr   : Nat
  rkey   : Nat
  len    : Nat
  issued : Bool
  deriving DecidableEq, Repr

/-- A host buffer: address, remote key, length. -/
structure Buf where
  addr : Nat
  rkey : Nat
  len  : Nat
  deriving DecidableEq, Repr

/-- One operation of a batch list (R179), with its value's descriptor when VALUE_DESC is set. -/
structure BatchOp where
  opcode : Nat
  flags  : Nat
  ks     : Nat
  key    : Bytes
  valLen : Nat
  operand : Nat
  inl    : Bytes
  desc   : Option Bytes
  deriving DecidableEq, Repr

/-- The value bytes of operation `i` of a command. -/
def valueOf (vals : List (Nat × Bytes)) (i : Nat) : Bytes := (vals.filter fun v => v.1 == i).flatMap (·.2)

/-- A CQE written, as an SQ and the commands that wait for it remember it (R237): tag, status, when its entry was made available, fetch
order, whether its command was discarded by a freeze. -/
structure Done where
  tag    : Nat
  status : Nat
  avail  : Nat
  ord    : Nat
  disc   : Bool
  deriving DecidableEq, Repr

/-- What a fetched command waits for before it starts (R202, R237, R241, R274). -/
inductive Wait where
  | none | domino (sq ord : Nat) | catchUp | barrier | watchSlot | dedup
  deriving DecidableEq, Repr

/-- A command context (R34): the SQE and its execution state. `ord` is the fetch order, `abs` the absolute ring position,
`avail` the doorbell that made the entry available (R218). `late` marks an entry fetched from a frozen admin SQ (R265),
`dup` one refused under R110, `marked` one that an ABORT has stopped (tag, SQ), `pred` the CQE of the predecessor that it waited for
(R237). `quotas` are the byte and key-count quotas of the key spaces it names as they were when it entered its domain (R49), `original`
one that stage 5 has let pass as no repeat (R148). `chunks` are the 4 KiB codewords still to be read from media (number, ladder step: 1 for none yet, 0 once the index entry has been read
again), `frames` the frames that hold them, `source` the record read (ID, length) and `tagged` the codewords whose units carry tags (R471);
`ran` a SCAN or SEARCH whose output is on its way, or an admin command whose effect has begun; `catchUp` an entry that a catch-up fetch
took (R236).
`flush` holds the serials a FLUSH covers, `counted` its byte count, `mark` the last record ID and `marks` the bytes not yet
programmed of the values staged on its own SQ when it entered its domain (R213); `marks` of a KSDELETE the commands (SQ, fetch order)
that had entered on its key space before it (R50). -/
structure Ctx where
  sq       : Nat
  ord      : Nat
  abs      : Nat
  conn     : Nat
  tenant   : Nat
  avail    : Nat
  op       : Nat := 0
  e        : Sqe := {}
  arrived  : Bool := false
  dup      : Bool := false
  late     : Bool := false
  catchUp  : Bool := false
  wait     : Wait := .none
  pred     : Option Done := none
  started  : Bool := false
  quotas   : List (Nat × Nat × Nat) := []
  original : Bool := false
  fail     : Option Res := none
  reads    : List ReadReq := []
  key      : Option Bytes := none
  vals     : List (Nat × Bytes) := []
  routes   : List (Nat × Nat) := []
  ops      : Option (List BatchOp) := none
  pat      : Bytes := []
  out      : List Buf := []
  ran      : Bool := false
  turned   : Bool := false
  settled  : Bool := false
  res      : Res := {}
  data     : Bytes := []
  chunks   : List (Nat × Nat) := []
  ladder   : List (Nat × BitVec 48) := []
  frames   : List Nat := []
  source   : Option (Nat × Nat) := none
  tagged   : List Nat := []
  writes   : Nat := 0
  snap     : Option Nat := none
  serial   : Option Nat := none
  flush    : List Nat := []
  counted  : Nat := 0
  mark     : Nat := 0
  marks    : List (Nat × Nat) := []
  cqe      : Bool := false
  marked   : Option (Nat × Nat) := none
  discarded : Bool := false
  deriving DecidableEq, Repr

/-- The value bytes of operation `i` of a command. -/
def Ctx.value (c : Ctx) (i : Nat) : Bytes := valueOf c.vals i

/-- A watch (R201, R206); `since` is the turn serial at its turn (R302), `ord` the fetch order of its WATCH. -/
structure Watch where
  id     : Nat
  since  : Nat
  conn   : Nat
  tenant : Nat
  ks     : Nat
  pat    : Bytes
  ring   : List Buf
  slots  : Nat
  seq    : Nat
  ord    : Nat
  deriving DecidableEq, Repr

/-- A committed write whose key waits for the pattern engine (R310, R312). -/
structure Check where
  serial  : Nat
  ks      : Nat
  key     : Bytes
  kind    : Nat
  version : Nat
  deriving DecidableEq, Repr

/-- The command island. `base` is the stored state at the last checkpoint and `log` the commit records since, oldest
first; `winSeq` counts the window entries created; `store` is the stored state now. `packWait` lists records that wait for room in a pack,
`admq` commands that wait for admission, in the order they asked. -/
structure Kvx where
  store    : Store
  base     : Store
  log      : List CommitRec
  turnSer  : Nat
  domSer   : Nat
  fetchSeq : Nat
  doorSeq  : Nat
  recCount : Nat
  ctxs     : List Ctx
  deleting : List Nat
  staged   : List Staged
  pack     : Option Pack
  packs    : List Pack
  packSeq  : Nat
  packWait : List Nat
  journal  : List Nat
  admq     : List (Nat × Nat)
  window   : List WinEntry
  winSeq   : Nat
  watches  : List Watch
  checks   : List Check
  deriving DecidableEq, Repr

end Sys2Proof.Machine
end

