-- ==== Sys2Proof/Machine/StXpt.lean ====
section
/-! DEFINITION. State of connections, rings and transport (03, 07, 11): connection table, queues, error records, requests
not yet acknowledged. -/

namespace Sys2Proof.Machine

/-- The reason that a REJ gives (R89). -/
inductive RejReason where
  | serviceId | transport | pathMtu | consumer | noQp
  deriving DecidableEq, Repr

/-- A CM message that the drive answers: REP with connection index, QP number and first PSN, REJ, APR for a LAP (R89, R90, R443). -/
inductive CmMsg where
  | rep (conn qpn psn : Nat)
  | rej (reason : RejReason)
  | apr (conn : Nat)
  deriving DecidableEq, Repr

/-- Connection states (R92) with the codes of `XPT_CSTATE.STATE`. -/
inductive ConnState where
  | free | held | awaitingHello | ready | closing
  deriving DecidableEq, Repr

/-- What an RDMA request of the drive is for, so that its acknowledgement or refusal can be handled. -/
inductive ReqFor where
  | sqe (sq : Nat) (ords : List Nat)
  | data (sq ord : Nat)
  | value (sq ord : Nat)
  | cqe (cq : Nat) (owner : Option (Nat × Nat))
  | notify
  | keyRing (watch ord : Nat)
  | results (sq ord : Nat)
  | challenge
  deriving DecidableEq, Repr

/-- A request sent by the drive and not yet acknowledged (R117, R127, R440): its kind, where it goes, its bytes and
immediate data, the PSNs it takes, whether all of it has been handed to the port (R435, R442), and how many of its packets are
acknowledged. -/
inductive ReqKind where
  | read (len : Nat) | write | writeImm (imm : Nat) | send
  deriving DecidableEq, Repr

structure Req where
  kind   : ReqKind
  what   : ReqFor
  addr   : Nat
  rkey   : Nat
  data   : Bytes
  psn    : Nat
  npsn   : Nat
  wire   : Bool := true
  got    : Nat := 0
  deriving DecidableEq, Repr

/-- A RoCE packet of the drive (R438): its BTH opcode and PSN, the header that follows the BTH, its payload; `again` marks one sent again
(R440), `ends` names the request whose last packet it is, by its first PSN. -/
structure Packet where
  op    : Nat
  psn   : Nat
  ext   : Bytes
  data  : Bytes
  again : Bool := false
  ends  : Option Nat := none
  deriving DecidableEq, Repr

/-- An error record (R267). -/
structure ErrRec where
  seq        : Nat
  sq         : Nat
  cq         : Nat
  admin      : Bool
  restarted  : Option Bool
  frozen     : Bool
  tag        : Nat
  res        : Res
  op         : Nat
  idx        : Nat
  firstTag   : Nat
  lastTag    : Nat
  count      : Nat
  freezeHead : Nat
  tail       : Nat
  restart    : Nat
  life       : Nat
  deriving DecidableEq, Repr

/-- State of a connection's alternate path (R443, R454). -/
inductive AltState where
  | none | armed | migrated
  deriving DecidableEq, Repr

/-- Path parameters of a connection (R133): remote QPN, addresses and the fields of `XPT_CPARAM`. -/
structure PathParam where
  rqpn     : Nat
  rip      : Nat
  rmac     : Nat
  rnrTimer : Nat
  ackTo    : Nat
  rnrRetry : Nat
  retry    : Nat
  portB    : Bool
  pmtu     : Nat
  deriving DecidableEq, Repr

/-- An event CQE waiting for an entry of the event CQ (R119): its CQE bytes without phase. -/
abbrev EventCqe := Bytes

/-- One entry of the connection table (R88, R92, R133). `pending` marks an index taken by a REQ whose RTU has not arrived,
`preprov` a connection brought up by PROVISION, `dead` one whose retries ended on every path, so that no request of it is answered any
more; `txq` holds the packets that wait for flow control, the rate limit or a path, `tokens` what the rate limit
lets go as of life clock `tokAt`, in eightieths of a byte, `stalled` why the path cannot be used yet (1: the link of the port it has migrated
to is down, 2: its next hop is being asked for), `hop` the next hop of its primary path when the drive had to find it, `msn` counts the
requests it has taken as a responder; `lip` the local address that it was made with, `since` the life clock at which it entered AWAITING_HELLO; `sPsn0` the initial and
`sPsn` the next send PSN, `events` the event CQEs that wait for room, `errs` its error records. -/
structure Conn where
  idx       : Nat
  state     : ConnState
  pending   : Bool
  preprov   : Bool
  dead      : Bool
  cmdErr    : Bool
  tenant    : Nat
  qpn       : Nat
  sPsn0     : Nat
  sPsn      : Nat
  rPsn      : Nat
  path      : PathParam
  lip       : Nat
  since     : Nat
  resources : Nat
  challenge : Bytes
  dbKey     : Nat
  authF     : Nat
  sendX     : Nat
  dbX       : Nat
  adminSq   : Nat
  adminCq   : Nat
  eventCq   : Nat
  unacked   : List Req
  retries   : Nat
  rnrs      : Nat
  events    : List EventCqe
  errs      : List ErrRec
  errSeq    : Nat
  txq       : List Packet := []
  tokens    : Nat := 5242880
  tokAt     : Nat := 0
  stalled   : Nat := 0
  hop       : Nat := 0
  msn       : Nat := 0
  deriving DecidableEq, Repr

/-- Rate, congestion and alternate path of a connection (R441-R444, R454). `rate` is in tenths of a Gb/s, `altArm` the
ARM write made in HELD, `altLip` the local address of the alternate path, `altGiven` its next hop as the management path or CM gave it (0:
to be found), `altWait` that this is being resolved, `lastCnp` the life clock of the last CNP sent and `lastDec` that of the last CNP
received or step of recovery. -/
structure ConnNet where
  idx      : Nat
  alt      : AltState
  altArm   : Bool
  altPortB : Bool
  altIp    : Nat
  altMac   : Nat
  altLip   : Nat
  altGiven : Nat
  altWait  : Bool
  rate     : Nat
  cnps     : Nat
  lastCnp  : Option Nat
  lastDec  : Option Nat
  deriving DecidableEq, Repr

/-- A freeze in progress (R254, R260, R267): the failing command, the freeze head, the tail at the freeze, the record's
sequence number once written, and what was discarded. -/
structure Freeze where
  failOrd    : Nat
  failAbs    : Nat
  tag        : Nat
  op         : Nat
  res        : Res
  freezeAbs  : Nat
  tail       : Nat
  life       : Nat
  firstTag   : Option Nat
  lastTag    : Nat
  count      : Nat
  recSeq     : Option Nat
  deriving DecidableEq, Repr


/-- A submission queue (R102-R104, R132). Head, fetch pointer and tail are absolute counts; ring indexes are these modulo
the depth. `segs` holds, for entries not yet fetched, the end of each accepted doorbell and its order (R218); `recent` the
64 most recent CQEs (R237); `roundCredit` is what is left of the SQ's share of the round and `limit` the credit limit of the round
(R122); `closing` marks a queue that a QDELETE drains;
`serial` is the domain serial (R407), `fresh` the fetch order from which commands count for the next freeze. -/
structure Sq where
  id      : Nat
  conn    : Nat
  admin   : Bool
  strict  : Bool
  cq      : Nat
  addr    : Nat
  rkey    : Nat
  depth   : Nat
  head    : Nat
  fetched : Nat
  tail    : Nat
  dbSeq   : Nat
  weight  : Nat
  credit  : Nat
  roundCredit : Nat
  limit   : Nat
  faulted : Bool
  freeze  : Option Freeze
  closing : Bool
  segs    : List (Nat × Nat)
  recent  : List Done
  stale   : Nat
  bad     : Nat
  serial  : Nat
  fresh   : Nat
  deriving DecidableEq, Repr

/-- A completion queue (R102-R106, R116, R118, R127, R132). `since` counts CQEs written since the last notification and `firstAt` is the
life clock of the first of them. -/
structure Cq where
  id      : Nat
  conn    : Nat
  admin   : Bool
  addr    : Nat
  rkey    : Nat
  depth   : Nat
  head    : Nat
  tail    : Nat
  dbSeq   : Nat
  nen     : Bool
  time    : Nat
  count   : Nat
  since   : Nat
  firstAt : Nat
  faulted : Bool
  stale   : Nat
  bad     : Nat
  evLost  : Nat
  deriving DecidableEq, Repr

/-- The rings (R132). `turn` is the SQ whose turn it is in the round (R122), `blinkAt` the life clock at which LED0 last went off for a CQE
(R643). -/
structure Hq where
  sqs     : List Sq
  cqs     : List Cq
  turn    : Nat
  hwm     : Nat
  fullCnt : Nat
  fullAt  : Option Nat
  blinkAt : Option Nat
  deriving DecidableEq, Repr

/-- The transport island (R133, R441-R446, R454). `cmOut` are the CM messages sent, oldest first, `cmWait` those that flow control holds,
by port; `tx` the packets handed to the ports (port B or not, connection) that the next tick sends, `hopAt` the life clock of the last
refresh of next hops (R445). -/
structure Xpt where
  conns   : List Conn
  nets    : List ConnNet
  cmOut   : List CmMsg
  cmWait  : List (Bool × CmMsg) := []
  tx      : List (Bool × Nat × Packet) := []
  hopAt   : Nat
  cmPort  : Nat
  helloTo : Nat
  cqMax   : Nat
  sqMax   : Nat
  ect     : Bool
  npEn    : Bool
  rpEn    : Bool
  dec     : Nat
  inc     : Nat
  minRate : Nat
  incUs   : Nat
  cnpUs   : Nat
  cnpTx   : Nat
  cnpRx   : Nat
  reTx    : Nat
  nakRx   : Nat
  migr    : Nat
  badReq  : Nat
  deriving DecidableEq, Repr

end Sys2Proof.Machine
end

