-- ==== Sys2Proof/Machine/State.lean ====
section
/-! DEFINITION. The state of the block, its faults and refusals, and its state right after reset. -/

namespace Sys2Proof.Machine

/-- No command of this block faults: every error of the spec is a status, a flag or an event. The one constructor is raised
by nobody (safe). (log 7 DESIGN CHOICE) -/
inductive Fault where
  /-- Raised by no meaning. -/
  | none
  deriving DecidableEq, Repr

/-- Why a command has no meaning. -/
inductive Refusal where
  /-- The command is not modelled; raised by its arm of `exec` alone (safe: the run stops). -/
  | notModelled (mnemonic : String)
  deriving DecidableEq, Repr

/-- The drive, but for its command queue and its configuration flash. `free` counts the free values drawn so far (the
model's own field). -/
structure Drive where
  kvx   : Kvx
  hq    : Hq
  xpt   : Xpt
  evr   : Evr
  clk   : Clocks
  idx   : Idx
  csc   : Csc
  med   : Med
  bank  : Bank
  portA : PortSt
  portB : PortSt
  jack  : Jack
  cry   : Cry
  dmc   : Dmc
  pwr   : Pwr
  upd   : Upd
  mgmt  : Mgmt
  sys   : Sys
  free  : Nat
  deriving DecidableEq, Repr

/-- The block: the queue of waiting commands, the configuration flash with the fuses, and the drive. -/
structure State where
  pending : List Instr
  nv      : Nv
  d       : Drive
  deriving DecidableEq, Repr

/-- A stored state with nothing in it. -/
def Store.empty : Store :=
  { kss := [], recs := [], snaps := [], snapGen := 0, created := 0, slots := [], driveKey := [], metaKey := [], tenants := []
    tokCur := [], tokPrev := [], epoch := 0, fpKey := [] }

/-- The stored state as manufactured: nothing but the fingerprint key (R291). -/
def Store.made : Store := { Store.empty with fpKey := Config.fpKey }

def Kvx.reset : Kvx :=
  { store := .made, base := .made, log := [], turnSer := 0, domSer := 0, fetchSeq := 0, doorSeq := 0, recCount := 0
    ctxs := [], deleting := [], staged := [], pack := none, packs := [], packSeq := 0, packWait := [], journal := [], admq := []
    window := [], winSeq := 0, watches := [], checks := [] }

/-- R132: no queue exists. -/
def Hq.reset : Hq := { sqs := [], cqs := [], turn := 0, hwm := 0, fullCnt := 0, fullAt := none, blinkAt := none }

/-- R133, R454. -/
def Xpt.reset : Xpt :=
  { conns := [], nets := [], cmOut := [], hopAt := 0, cmPort := 0x1D2F, helloTo := 0x1388, cqMax := 0x100, sqMax := 0x100, ect := true, npEn := true
    rpEn := true, dec := 1, inc := 5, minRate := 1, incUs := 55, cnpUs := 50, cnpTx := 0, cnpRx := 0, reTx := 0, nakRx := 0
    migr := 0, badReq := 0 }

/-- R603, R617. -/
def Evr.reset : Evr :=
  { srcs := [], front := [], carousel := [], nextSeq := 1, lost := 0, lostNew := 0, birth := 0, freeze := none, lift := 0
    fullAt := none }

/-- R613-R615: the clocks of a module whose always-on supply has just risen for the first time. -/
def Clocks.reset : Clocks :=
  { life := 0, lifeJour := 0, wallSet := false, wall := 0, wallRun := 0, wallErr := 0, wallBack := false, timeErr := false
    installed := 0, instNs := 0, instJour := 0 }

/-- Tile `t` after reset (R304, R305, R331). -/
def Tile.reset (t : Nat) : Tile :=
  { fenced := false, pend := false, pfEn := decide (t < 12), pos := 64, srch := 0, upd := 0, idle := 0
    grpe := 0, ahead := 0, todo := 0 }

/-- R298, R331. -/
def Idx.reset : Idx :=
  { tiles := (List.range 16).map Tile.reset, pquad := 8, pnext := none, updCap := 8, cfgErr := false, fwMatch := false, cam := []
    prows := [], installs := [], pages := [], pageSeq := 0, cached := [], lost := [], camHit := 0, dramHit := 0, flashRd := 0, slots := []
    rebuild := [], full := [], rbAt := 0 }

/-- R332. -/
def Csc.reset : Csc :=
  { en := false, clkMst := false, high := false, clkOk := false, inRing := false, sampling := false, drives := false, roll := 0
    lat := 0, dupMst := false, dupSlot := false, voided := false, seqMm := false, syncTo := false, syncMs := 10, arb := 0
    won := 0, supp := 0, voids := 0, lastSeq := 0, find := [], run := none, headVoids := 0, headAt := 0, winAt := 0
    due := false, mo := none }

/-- R385. -/
def Med.reset : Med :=
  { chans := [], dies := [], blocks := [], swept := 0, segs := [], aside := [], asideAt := [0, 0, 0, 0], asideUnits := [], marks := [], due := [], nextSeg := 0, segBase := 0, chLost := none, capacity := 96 * 2 ^ 40
    target := 0, actual := 384, frames := 15360, gcState := 0, gcWrote := 0, hostHour := 0, hourAt := 0, bufAt := 0, atFloor := false, hostW := 0, paced := []
    bucket := 2 ^ 30, pacing := false, near := false, scrubIv := 30, scrub := false, scrubAt := 0, scrubSeg := 0, refPass := 0, askAt := none, defer := 0, deferLife := 0
    workAt := 0, lastPass := 0, passWall := 0, passes := 0, refLast := 0, refLife := 0 }

def Section.reset : Section := { state := 0, cause := 0, cap := 0, esr := 0, vc := 0, low := 0 }

/-- R417. -/
def Bank.reset : Bank :=
  { sects := List.replicate 8 .reset, en := false, lowE := false, overE := false, chg := false, cmdErr := false
    stageCap := 0x1000, emeas := 0, round := none, measuring := false, vcNow := 0, again := false, first := true
    lastStart := 0, lastEnd := none, bankV := 0, waits := 0, unprot := 0, holdUps := 0, sealOk := false, ckptOk := false
    flushMs := 0, torn := false, dropped := 0, replayMs := 0 }

/-- R453. -/
def PortSt.reset : PortSt :=
  { link := { anEn := true, adv := 0x1F, fec25 := true, mode := 1, up := false, train := false, fecOn := false, res := 0
              cfgErr := false, downs := 0, run := { anEn := true, adv := 0x1F, fec25 := true, mode := 1 } }
    maxFrm := 9216, ip4 := 0, ip6 := 0, nhMac := 0, tagEn := false, pcp := 0, vid := 0, cnpDscp := 48, dscp := 26
    flow := { fc := 0, prio := 3, quanta := 0xFFFF, high := 3072, low := 2560, sent := false, held := none
              heldAt := 0, heldFrom := 0, sentAt := 0, stormAt := 0, stepAt := 0, storm := false, ctEn := true, ctMin := 0, ctCur := 0 }
    rxDef := 0, filters := [], hits := [], stats := [], half := 0, neighs := [], echo := (0, 0), out := [], txq := [] }

/-- R447, R453. -/
def Jack.reset : Jack := { code := 0, arm := false, lock := false, bad := 0, ok := 0, badRun := [], onLane := false, link := false }

def DigCtx.reset : DigCtx :=
  { alg := 0, slot := 0, busy := false, done := false, isOpen := false, clr := false, err := false, wlo := 0, whi := 0
    msg := [], key := [], res := [] }

/-- R484, R485. -/
def Cry.reset : Cry :=
  { vauth := false, xts128 := false, aesFence := 0, digFence := 0, alarm := 0, katRun := false, katAt := none, ctxs := []
    preempts := 0, exports := 0, authF := 0, blobF := 0, blobSer := 0, blobBusy := false, blobReason := 0, blobStatus := 0
    lost := false, busErrs := [], p384Bad := false, exportKey := 0, exportCnt := 0, records := [], blobHeld := none, dig := List.replicate 4 .reset }

def Dram.reset : Dram :=
  { state := 0, pending := 0, target := 0, stored := 0, speed := 0, ce := 0, ue := 0, par := 0, replays := 0, replayF := 0
    trains := 0, errAddr := 0, errSub := false, errReg := 0, errVal := false, fails := 0, ueAt := [], trainedAt := 0 }

/-- The queues of a channel with nothing in them. -/
def DramQueue.empty : DramQueue := { rq := [], wq := [], held := [], draining := false, rows := [], fwd := 0, retry := [], stopped := [] }

/-- R511. -/
def Dmc.reset : Dmc :=
  { chans := List.replicate 4 .reset, page := 64, rtInt := 30, patrol := false, patrolAt := none, patrolPct := 0
    patrolLine := 0, vals := [], queues := List.replicate 4 .empty }

/-- R537: BOOT, with both supplies up and RESET# high. -/
def Pwr.reset : Pwr :=
  { cur := 1, last := 3, change := none, roCause := 0, capSel := 3, capTherm := 3, capEff := 3, roWant := 0, cmdQ := [], shut := false
    resume := none, cmdErr := false, cmdDet := 0, cmdStat := 0
    bootMode := 3, autoIdle := 0, wakeSrc := 0, share := false, pinEn := true, alarm := 0, why := 0, req := false, good := true
    mainOk := true, aux := true, resetN := true, temp := 0, peak := 0, avg := 0, trans := 0, idleAt := 0, wakeOut := none }

/-- R590, R591. -/
def Upd.reset : Upd :=
  { stage := 0, step := 0, cmdErr := false, trialEnd := none, stall := 0, fresh := true, cause := 0, falls := 0, tests := [], sanState := 0, sanBlock := false
    tested := false, sanStep := 0, sanPct := 0, sanCount := 0, sanStart := 0, sanEnd := 0, sanRet := 0, nonce := [], actions := [], actSerial := 0, actErr := false, cores := 0, spares := 0
    fencedCores := 0, resets := [], fenced := [], inReset := [], cfgAt := none, fallen := [], bootRun := none, late := [], clamped := [] }

/-- R648. -/
def Mgmt.reset : Mgmt :=
  { addr := 0x58, secReq := false, secKept := false, eid := 0
    session := { isOpen := false, id := 0, tenant := 0, key := [], counter := 0, challenge := none, last := 0 }
    pecErr := 0, smbTo := 0, mDrop := 0, locate := false, ledDis := false, slotId := 0, asms := [], resp := [], tries := 0, out := []
    areaBusy := none, verified := [] }

/-- A path's copies at their reset values (R651). -/
def PathRegs.reset : PathRegs :=
  { sel := [], staging := [], latch := [], selErr := false, islDown := false, selReg := 0, isl := 0, mute := [] }

def Sys.reset : Sys := { smbus := .reset, admin := .reset, preload := .reset, posted := [] }

def Drive.reset : Drive :=
  { kvx := .reset, hq := .reset, xpt := .reset, evr := .reset, clk := .reset, idx := .reset, csc := .reset, med := .reset
    bank := .reset, portA := .reset, portB := .reset, jack := .reset, cry := .reset, dmc := .reset, pwr := .reset
    upd := .reset, mgmt := .reset, sys := .reset, free := 0 }

/-- The block right after reset: no command waits, the configuration flash is erased, no fuse is blown.
(log 5 DESIGN CHOICE, 6 DESIGN CHOICE) -/
def State.reset : State := { pending := [], nv := { flash := [], fuses := 0 }, d := .reset }

end Sys2Proof.Machine
end

