-- ==== Sys2Proof/Machine/Ops.lean ====
section
/-! DEFINITION. The shared operations of the block: parts of the state by name, random draws, event sources and records,
requests to the host, completion entries and notifications. -/

namespace Sys2Proof.Machine

/-- Changes `kvx` alone. -/
def Drive.onKvx (f : Kvx → Kvx) (d : Drive) : Drive := { d with kvx := f d.kvx }
/-- Changes `hq` alone. -/
def Drive.onHq (f : Hq → Hq) (d : Drive) : Drive := { d with hq := f d.hq }
/-- Changes `xpt` alone. -/
def Drive.onXpt (f : Xpt → Xpt) (d : Drive) : Drive := { d with xpt := f d.xpt }
/-- Changes `evr` alone. -/
def Drive.onEvr (f : Evr → Evr) (d : Drive) : Drive := { d with evr := f d.evr }
/-- Changes `clk` alone. -/
def Drive.onClk (f : Clocks → Clocks) (d : Drive) : Drive := { d with clk := f d.clk }
/-- Changes `idx` alone. -/
def Drive.onIdx (f : Idx → Idx) (d : Drive) : Drive := { d with idx := f d.idx }
/-- Changes `csc` alone. -/
def Drive.onCsc (f : Csc → Csc) (d : Drive) : Drive := { d with csc := f d.csc }
/-- Changes `med` alone. -/
def Drive.onMed (f : Med → Med) (d : Drive) : Drive := { d with med := f d.med }
/-- Changes `bank` alone. -/
def Drive.onBank (f : Bank → Bank) (d : Drive) : Drive := { d with bank := f d.bank }
/-- Changes `jack` alone. -/
def Drive.onJack (f : Jack → Jack) (d : Drive) : Drive := { d with jack := f d.jack }
/-- Changes `cry` alone. -/
def Drive.onCry (f : Cry → Cry) (d : Drive) : Drive := { d with cry := f d.cry }
/-- Changes `dmc` alone. -/
def Drive.onDmc (f : Dmc → Dmc) (d : Drive) : Drive := { d with dmc := f d.dmc }
/-- Changes `pwr` alone. -/
def Drive.onPwr (f : Pwr → Pwr) (d : Drive) : Drive := { d with pwr := f d.pwr }
/-- Changes `upd` alone. -/
def Drive.onUpd (f : Upd → Upd) (d : Drive) : Drive := { d with upd := f d.upd }
/-- Changes `mgmt` alone. -/
def Drive.onMgmt (f : Mgmt → Mgmt) (d : Drive) : Drive := { d with mgmt := f d.mgmt }
/-- Changes `sys` alone. -/
def Drive.onSys (f : Sys → Sys) (d : Drive) : Drive := { d with sys := f d.sys }

/-- The port of a name. -/
def Drive.port (p : Port) (d : Drive) : PortSt :=
  match p with
  | .a => d.portA
  | .b => d.portB

/-- Changes one port alone. -/
def Drive.onPort (p : Port) (f : PortSt → PortSt) (d : Drive) : Drive :=
  match p with
  | .a => { d with portA := f d.portA }
  | .b => { d with portB := f d.portB }

/-- `n` bytes from the drive's random source, and the drive with its draw counter moved past them. -/
def Drive.draw (n : Nat) (d : Drive) : Bytes × Drive :=
  ((List.range n).map fun i => Config.freeByte (d.free + i), { d with free := d.free + n })

/-- One open number, and the drive with its draw counter moved past it. -/
def Drive.drawNat (d : Drive) : Nat × Drive := (Config.freeNat d.free, { d with free := d.free + 1 })

/-- Counts one in statistics counter `i` of a port (R451): 48 bits, with the half-range flag and event when bit 47 rises. -/
def PortSt.bump (i n : Nat) (p : PortSt) : PortSt :=
  let old := lookupD p.stats i 0
  let new := (old + n) % 2 ^ 48
  { p with stats := setKey p.stats i new
           half := if !bit old 47 && bit new 47 && !bit p.half i then p.half + 2 ^ i else p.half }

/-! Modes (R512): 0 RESET, 1 BOOT, 2 RECOVERY, 3-6 ACTIVE, 7 IDLE, 8 PARKED, 9 SCRUB, 0xA HOLD-UP, 0xB READ-ONLY. -/

/-- One of the four ACTIVE modes. -/
def Pwr.active (p : Pwr) : Bool := decide (3 ≤ p.cur) && decide (p.cur ≤ 6)

/-- A mode in which host commands are served: ACTIVE, IDLE and READ-ONLY. -/
def Pwr.serving (p : Pwr) : Bool := p.active || p.cur == 7 || p.cur == 0xB

/-- A mode that accepts writes: ACTIVE and IDLE (R525). -/
def Pwr.writable (p : Pwr) : Bool := p.active || p.cur == 7

/-! Operations in progress (R137). -/

/-- A live activation or rollback runs. -/
def Upd.activating (u : Upd) : Bool := u.stage == 3 || u.stage == 5

/-- A self-test runs. -/
def Upd.testing (u : Upd) : Bool := u.tests.any fun t => t.state == 1

/-! Connections, queues and contexts by name. -/

def Drive.conn? (c : Nat) (d : Drive) : Option Conn := d.xpt.conns.find? fun x => x.idx == c
def Drive.sq? (q : Nat) (d : Drive) : Option Sq := d.hq.sqs.find? fun x => x.id == q
def Drive.cq? (q : Nat) (d : Drive) : Option Cq := d.hq.cqs.find? fun x => x.id == q
def Drive.ctx? (q ord : Nat) (d : Drive) : Option Ctx := d.kvx.ctxs.find? fun x => x.sq == q && x.ord == ord
def Store.ks? (id : Nat) (s : Store) : Option KeySpace := s.kss.find? fun x => x.id == id
def Store.tenant? (id : Nat) (s : Store) : Option Tenant := s.tenants.find? fun x => x.id == id

def Drive.onConn (c : Nat) (f : Conn → Conn) (d : Drive) : Drive :=
  d.onXpt fun x => { x with conns := updFirst (fun y => y.idx == c) f x.conns }
def Drive.onSq (q : Nat) (f : Sq → Sq) (d : Drive) : Drive :=
  d.onHq fun h => { h with sqs := updFirst (fun y => y.id == q) f h.sqs }
def Drive.onCq (q : Nat) (f : Cq → Cq) (d : Drive) : Drive :=
  d.onHq fun h => { h with cqs := updFirst (fun y => y.id == q) f h.cqs }
def Drive.onCtx (q ord : Nat) (f : Ctx → Ctx) (d : Drive) : Drive :=
  d.onKvx fun k => { k with ctxs := updFirst (fun y => y.sq == q && y.ord == ord) f k.ctxs }

/-! Event sources (R592-R600). -/

/-- Severity and kind of a source in the catalogue of R600: 0 INFO, 1 WARN, 2 CRITICAL, and whether it is LATCHED; none for
a reserved source. -/
def catalogue (s : Nat) : Option (Nat × Bool) :=
  if 0x100 ≤ s ∧ s < 0x180 then
    match s % 4 with
    | 0 => some (1, true)
    | 1 => some (1, false)
    | 2 => some (0, false)
    | _ => some (1, false)
  else if 0x040 ≤ s ∧ s < 0x080 then
    match s % 0x20 with
    | 0 => some (0, false)
    | 1 => some (0, true)
    | 2 => some (1, false)
    | 3 => some (1, true)
    | 4 => some (0, true)
    | 5 => some (0, true)
    | 6 => if s < 0x060 then some (1, false) else none
    | _ => none
  else if [0x002, 0x004, 0x009, 0x00C, 0x010, 0x016, 0x020, 0x02A, 0x09A, 0x183, 0x1C2, 0x1C3, 0x1C6, 0x1E3, 0x1E4].contains s
  then some (2, false)
  else if [0x006, 0x013, 0x021, 0x022, 0x023, 0x094, 0x184].contains s then some (1, true)
  else if [0x007, 0x084, 0x092, 0x1E0, 0x1FB].contains s then some (0, true)
  else if [0x003, 0x008, 0x00A, 0x00B, 0x012, 0x014, 0x015, 0x024, 0x025, 0x027, 0x080, 0x082, 0x083, 0x090, 0x091, 0x093,
      0x096, 0x097, 0x180, 0x182, 0x1C0, 0x1C1, 0x1C4, 0x1C5, 0x1E1, 0x1E2, 0x1F0, 0x1F3, 0x1F5, 0x1F9, 0x1FA, 0x1FC,
      0x1FD].contains s then some (1, false)
  else if [0x000, 0x001, 0x005, 0x011, 0x017, 0x018, 0x019, 0x01A, 0x01B, 0x026, 0x028, 0x029, 0x081, 0x095, 0x098, 0x099,
      0x181, 0x1C7, 0x1F1, 0x1F2, 0x1F4, 0x1F6, 0x1F7, 0x1F8].contains s then some (0, false)
  else none

/-- `HQ_WATCH`, the source of fixed routing (R595). -/
def srcWatch : Nat := 0x095
/-- `HQ_CTX_FULL`, the source routed at most once in 100 ms (R594). -/
def srcCtxFull : Nat := 0x093

/-- A source's state before anything changed it (R595). -/
def Src.default (s : Nat) : Src :=
  match catalogue s with
  | none => { count := 0, en := false, sev := 0, latch := false, toRec := false, alert := false, cqe := false }
  | some (sev, _) =>
    { count := 0, en := true, sev := sev, latch := false, toRec := s != srcWatch, alert := sev == 2
      cqe := decide (1 ≤ sev) || s == srcWatch }

/-- The state of source `s`. -/
def Evr.src (s : Nat) (e : Evr) : Src := lookupD e.srcs s (.default s)

/-- A record enters the front buffer, or is lost when the buffer is full (R601, R604, R607). -/
def Evr.record (life wall : Nat) (parked : Bool) (src sev count : Nat) (data : Bytes) (e : Evr) : Evr :=
  if e.front.length < 4096 then
    { e with
      front := e.front ++ [{ seq := e.nextSeq, life := life, wall := wall, src := src, sev := sev
                             frozen := e.freeze.isSome, parked := parked, count := count, data := padTo 24 data }]
      nextSeq := e.nextSeq + 1 }
  else { e with lost := wrap32 (e.lost + 1), lostNew := e.lostNew + 1 }

/-- The wall time as results report it: 0 while not set (R60). -/
def Clocks.wallTime (c : Clocks) : Nat := if c.wallSet then c.wall else 0

/-- One occurrence of a source, without its event CQE: the count, the latch, the record; and whether it is routed. -/
def Drive.occur (s : Nat) (data : Bytes) (d : Drive) : Bool × Drive :=
  match catalogue s with
  | none => (false, d)
  | some (_, latched) =>
    let v := d.evr.src s
    let count := wrap32 (v.count + 1)
    -- R594: HQ_CTX_FULL is not routed within 100 ms of its last routed occurrence
    let quiet := s == srcCtxFull && (match d.evr.fullAt with
      | some t => decide (d.clk.life < t + 100000000)
      | none => false)
    let routed := v.en && (!latched || !v.latch) && !quiet
    let v' := { v with count := count, latch := v.latch || (v.en && s != srcWatch) }
    let e := { d.evr with
      srcs := setKey d.evr.srcs s v'
      fullAt := if s == srcCtxFull && routed then some d.clk.life else d.evr.fullAt }
    let e := if routed && (v.toRec || v.sev == 2) then
        e.record d.clk.life d.clk.wallTime (d.pwr.cur == 8 || d.pwr.cur == 0) s v.sev count data
      else e
    (routed, { d with evr := e })

/-! Requests of the drive to the host. -/

/-- The path MTU in bytes of its code (R133). -/
def mtuBytes (code : Nat) : Nat := if code = 3 then 1024 else if code = 4 then 2048 else 4096

/-- PSNs a request takes: one for each packet of its payload or of its response. -/
def psnCount (mtu len : Nat) : Nat := max 1 ((len + mtu - 1) / mtu)

/-! Packets (R426-R429, R438). Their formats are those of RoCEv2. (log 159 PRESUMED) -/

/-- The RETH of a request: virtual address, remote key, length of the DMA. -/
def reth (addr rkey len : Nat) : Bytes := beBytes 8 addr ++ beBytes 4 rkey ++ beBytes 4 len

/-- The packets of a request that are not acknowledged. -/
def Req.packets (mtu : Nat) (r : Req) : List Packet :=
  match r.kind with
  | .read n => [{ op := 0x0C, psn := r.psn, ext := reth r.addr r.rkey n, data := [], ends := some r.psn }]
  | .send => [{ op := 0x04, psn := r.psn, ext := [], data := r.data, ends := some r.psn }]
  | .writeImm i => [{ op := 0x0B, psn := r.psn, ext := reth r.addr r.rkey r.data.length ++ beBytes 4 i, data := r.data, ends := some r.psn }]
  | .write =>
    ((List.range r.npsn).drop r.got).map fun i =>
      let first := decide (i = 0)
      let last := decide (i + 1 = r.npsn)
      { op := if first then (if last then 0x0A else 0x06) else if last then 0x08 else 0x07
        psn := (r.psn + i) % 2 ^ 24
        ext := if first then reth r.addr r.rkey r.data.length else []
        data := (r.data.drop (mtu * i)).take mtu
        ends := if last then some r.psn else none }

/-- The length of a packet's frame (R425-R427). -/
def Packet.size (tag v4 : Bool) (p : Packet) : Nat :=
  max 64 (14 + (if tag then 4 else 0) + (if v4 then 20 else 40) + 8 + 12 + p.ext.length + roundUp p.data.length 4 + 4 + 4)

/-- What a frame of `n` bytes takes of the tokens. -/
def tokensOf (n : Nat) : Nat := 80 * n

/-- The burst of the rate limit: 64 KiB (R442). -/
def burst : Nat := tokensOf 65536

/-- An IPv4 address in mapped form (R421). -/
def isMapped (ip : Nat) : Bool := ip / 2 ^ 32 == 0xFFFF

/-- The packets that the tokens let go: what is left, those that go, those that wait. -/
def letGo (size : Packet → Nat) : Nat → List Packet → Nat × List Packet × List Packet
  | t, [] => (t, [], [])
  | t, p :: ps =>
    if tokensOf (size p) ≤ t then
      let r := letGo size (t - tokensOf (size p)) ps
      (r.1, p :: r.2.1, r.2.2)
    else (t, [], p :: ps)

def ConnNet.fresh (i : Nat) : ConnNet :=
  { idx := i, alt := .none, altArm := false, altPortB := false, altIp := 0, altMac := 0, altLip := 0, altGiven := 0, altWait := false, rate := 0, cnps := 0, lastCnp := none
    lastDec := none }

/-- The network side of connection `c`. -/
def Xpt.net (c : Nat) (x : Xpt) : ConnNet := (x.nets.find? fun y => y.idx == c).getD (.fresh c)

/-- Bytes that a port's transmit buffer holds: frames that flow control holds, packets that the next tick sends (R434). -/
def Drive.txBytes (portB : Bool) (d : Drive) : Nat :=
  let p := if portB then d.portB else d.portA
  sumBy List.length p.txq + sumBy (fun (x : Bool × Nat × Packet) => if x.1 == portB then x.2.2.size p.tagEn false else 0) d.xpt.tx

/-- Connection `x` cannot send now: flow control holds its port, the transmit buffer of 2 MiB is full, or its path cannot be used yet
(R424, R434, R435, R446). -/
def Drive.holds (x : Conn) (d : Drive) : Bool :=
  (if x.path.portB then d.portB else d.portA).flow.held.isSome || x.stalled != 0 || decide (2 * 2 ^ 20 ≤ d.txBytes x.path.portB)

/-- The waiting packets of a connection go to its port, in order, as far as the rate limit lets them (R442). Those sent again are counted in
`XPT_RETX`, CNPs in `XPT_CNPTX`. -/
def Drive.release (c : Nat) (d : Drive) : Drive :=
  match d.conn? c with
  | none => d
  | some x =>
    if x.txq.isEmpty || d.holds x then d
    else
      let p := if x.path.portB then d.portB else d.portA
      let have_ := min burst (x.tokens + (d.xpt.net c).rate * (d.clk.life - x.tokAt))
      let r := letGo (Packet.size p.tagEn (isMapped x.path.rip)) have_ x.txq
      let gone := r.2.1
      d.onXpt fun y => { y with
        conns := updFirst (fun z => z.idx == c) (fun z =>
          { z with txq := r.2.2, tokens := r.1, tokAt := d.clk.life
                   unacked := z.unacked.map fun q => if gone.any fun g => g.ends == some q.psn then { q with wire := true } else q }) y.conns
        tx := y.tx ++ gone.map fun g => (x.path.portB, c, g)
        reTx := wrap32 (y.reTx + (gone.filter (·.again)).length)
        cnpTx := wrap32 (y.cnpTx + (gone.filter fun g => g.op == 0x81).length) }

/-- Sends a packet of connection `c` behind those that wait. -/
def Drive.sendPacket (c : Nat) (p : Packet) (d : Drive) : Drive := (d.onConn c fun x => { x with txq := x.txq ++ [p] }).release c

/-- Sends a request on connection `c` and keeps it until it is acknowledged (R117, R440). It is on the wire once all its packets have gone to
the port. (log 50 DESIGN CHOICE) -/
def Drive.send (c : Nat) (kind : ReqKind) (what : ReqFor) (addr rkey : Nat) (data : Bytes) (d : Drive) : Drive :=
  (d.onConn c fun x =>
    let len := match kind with
      | .read n => n
      | _ => data.length
    let n := psnCount (mtuBytes x.path.pmtu) len
    let r : Req := { kind := kind, what := what, addr := addr, rkey := rkey, data := data, psn := x.sPsn, npsn := n, wire := false }
    { x with
      unacked := x.unacked ++ [r]
      txq := x.txq ++ r.packets (mtuBytes x.path.pmtu)
      sPsn := (x.sPsn + n) % 2 ^ 24 }).release c

/-- As a responder the drive answers a request packet (R440): an Acknowledge with its AETH, `syndrome` 0x1F for an acknowledgement, else the
code of a NAK. -/
def Drive.reply (c psn syndrome : Nat) (d : Drive) : Drive :=
  match d.conn? c with
  | none => d
  | some x => d.sendPacket c { op := 0x11, psn := psn, ext := beBytes 1 syndrome ++ beBytes 3 (x.msn % 2 ^ 24), data := [] }

/-- A request of `n` bytes is taken as the next one: the expected PSN moves past its packets, and it is acknowledged. -/
def Drive.taken (c n : Nat) (d : Drive) : Drive :=
  match d.conn? c with
  | none => d
  | some x =>
    let last := (x.rPsn + psnCount (mtuBytes x.path.pmtu) n - 1) % 2 ^ 24
    (d.onConn c fun x => { x with rPsn := (last + 1) % 2 ^ 24, msn := x.msn + 1 }).reply c last 0x1F

/-! Completion queues (R114-R119, R127, R128). -/

/-- Entries of a CQ reserved for fetched commands whose CQEs have not been written (R118). -/
def Drive.reserved (cq : Nat) (d : Drive) : Nat :=
  (d.kvx.ctxs.filter fun c => !c.cqe && (match d.sq? c.sq with
    | some s => s.cq == cq
    | none => false)).length

/-- The CQ has an entry that is neither unconsumed nor reserved (R118). -/
def Drive.cqRoom (q : Cq) (d : Drive) : Bool := decide (q.tail - q.head + d.reserved q.id < q.depth - 1)

/-- A CQE without its phase bit (R114). -/
def cqe (tag sq status flags : Nat) (res : Bytes) (len head : Nat) : Bytes :=
  leBytes 2 tag ++ leBytes 2 sq ++ leBytes 2 status ++ leBytes 2 flags ++ padTo 16 res ++ leBytes 4 len ++ leBytes 2 head
    ++ [0, 0]

/-- The phase of the pass in which absolute entry `t` of a ring lies (R116). -/
def phase (depth t : Nat) : Nat := if t / depth % 2 = 0 then 1 else 0

/-- Sets the phase bit of a CQE. -/
def withPhase (p : Nat) (b : Bytes) : Bytes := overlay b 6 [BitVec.ofNat 8 (byteAt b 6 / 2 * 2 + p)]

/-- Sends a notification of CQ `q` (R127, R128) and restarts its count. -/
def Drive.notify (q reason : Nat) (d : Drive) : Drive :=
  match d.cq? q with
  | none => d
  | some c =>
    if c.nen then
      (d.send c.conn (.writeImm (c.tail % c.depth * 2 ^ 16 + reason * 2 ^ 14 + q)) .notify 0 0 []).onCq q
        fun x => { x with since := 0 }
    else d

/-- Writes a CQE into the next entry of CQ `q` (R117) and counts it for moderation. -/
def Drive.appendCqe (q : Nat) (b : Bytes) (owner : Option (Nat × Nat)) (d : Drive) : Drive :=
  match d.cq? q with
  | none => d
  | some c =>
    ((d.send c.conn .write (.cqe q owner) (c.addr + 32 * (c.tail % c.depth)) c.rkey (withPhase (phase c.depth c.tail) b)).onCq q
      fun x => { x with tail := x.tail + 1, since := x.since + 1, firstAt := if x.since = 0 then d.clk.life else x.firstAt }).onHq
      fun h => { h with blinkAt := some (match h.blinkAt with
        | some t => if t + 250000000 ≤ d.clk.life then d.clk.life else t
        | none => d.clk.life) }

/-- Sends the notification that the moderation count asks for (R127). -/
def Drive.moderate (q : Nat) (d : Drive) : Drive :=
  match d.cq? q with
  | none => d
  | some c => if c.since ≥ c.count then d.notify q 0 else d

/-- The event CQE of an occurrence (R598). -/
def eventCqe (s q sev : Nat) (data : Bytes) (count : Nat) : Bytes :=
  leBytes 2 s ++ leBytes 2 q ++ leBytes 2 sev ++ leBytes 2 2 ++ padTo 16 data ++ leBytes 4 count ++ fill 4 0

/-- Connections that receive drive-scope events: READY, of a DRIVE_ADMIN tenant (R597). -/
def Drive.adminConns (d : Drive) : List Nat :=
  (d.xpt.conns.filter fun c => c.state == .ready && (match d.kvx.store.tenant? c.tenant with
    | some t => t.admin
    | none => false)).map (·.idx)

/-- Posts an event CQE on connection `c` (R119): written and notified at once when its event CQ has room, else kept, up to
64, else lost; none on a connection that is ending. The CQE routing of `HQ_EVLOST` has no effect (R600). -/
def Drive.postEvent (c : Nat) (b : Bytes) (d : Drive) : Drive :=
  match d.conn? c with
  | none => d
  | some x =>
    match d.cq? x.eventCq with
    | none => d
    | some q =>
      if x.state == .closing then d
      else if x.events.isEmpty && !q.faulted && d.cqRoom q then (d.appendCqe q.id b none).notify q.id 1
      else if x.events.length < 64 then d.onConn c fun y => { y with events := y.events ++ [b] }
      else ((d.onCq q.id fun y => { y with evLost := wrap32 (y.evLost + 1) }).occur 0x094 (leBytes 2 c ++ leBytes 2 q.id)).2

/-- One occurrence of a drive-scope source, with its event CQEs (R592, R597). -/
def Drive.raiseOne (s : Nat) (data : Bytes) (d : Drive) : Drive :=
  let r := d.occur s data
  let v := r.2.evr.src s
  if r.1 && v.cqe && s != 0x094 then
    r.2.adminConns.foldl (fun d c => d.postEvent c (eventCqe s 0xFFFF v.sev data v.count)) r.2
  else r.2

/-- A freeze of the carousel lifts by itself (R610): `lift` as `EVR_FRONT.LIFT`, `cause` as the record gives it. -/
def Drive.liftFreeze (lift cause : Nat) (d : Drive) : Drive :=
  if d.evr.freeze.isSome then
    (d.onEvr fun e => { e with freeze := none, lift := lift }).raiseOne 0x1F1 (leBytes 1 cause)
  else d

/-- The front buffer holds the 3,584 records at which a freeze lifts. -/
def Drive.frontCheck (d : Drive) : Drive := if 3584 ≤ d.evr.front.length then d.liftFreeze 2 1 else d

/-- One occurrence of a drive-scope source, after which a freeze may lift. -/
def Drive.raise (s : Nat) (data : Bytes) (d : Drive) : Drive := (d.raiseOne s data).frontCheck

/-- One occurrence of a connection-scope source about queue `q` (R597). -/
def Drive.raiseConn (s c q : Nat) (data : Bytes) (d : Drive) : Drive :=
  let r := d.occur s data
  let v := r.2.evr.src s
  (if r.1 && v.cqe then r.2.postEvent c (eventCqe s q v.sev data v.count) else r.2).frontCheck

/-- The effective cap (R515): the smallest of the selected cap, 25 W in ACTIVE/ARCHIVE and SCRUB, and the thermal limit. -/
def Pwr.capWant (p : Pwr) : Nat := min (min p.capSel p.capTherm) (if p.cur == 6 || p.cur == 9 then 1 else 3)

/-- The effective cap takes its value, with an event when it changes. -/
def Drive.refreshCap (d : Drive) : Drive :=
  let old := d.pwr.capEff
  let d := d.onPwr fun p => { p with capEff := p.capWant }
  if d.pwr.capEff != old then d.raise 0x01B (leBytes 1 old ++ leBytes 1 d.pwr.capEff) else d

/-- A mode change completes (R537, R600): the mode, the count of changes, its event. A freeze of the carousel lifts when the
drive leaves the ACTIVE modes, IDLE and READ-ONLY (R610). (log 85 DEDUCED) -/
def Drive.enterMode (m : Nat) (d : Drive) : Drive :=
  let old := d.pwr.cur
  let d := (d.onPwr fun p =>
    { p with cur := m, trans := wrap32 (p.trans + 1), last := if 3 ≤ m ∧ m ≤ 6 then m else p.last }).refreshCap
  let d := d.raise 0x001 [BitVec.ofNat 8 old, BitVec.ofNat 8 m, BitVec.ofNat 8 d.pwr.capEff]
  if d.pwr.serving then d else d.liftFreeze 3 3

/-- Counts in a statistics counter of a port, with the port's half-range event (R451). -/
def Drive.stat (p : Port) (i n : Nat) (d : Drive) : Drive :=
  let old := lookupD (d.port p).stats i 0
  let d := d.onPort p (PortSt.bump i n)
  if !bit old 47 && bit (lookupD (d.port p).stats i 0) 47 then d.raise (if p == .a then 0x041 else 0x061) (leBytes 1 i) else d

end Sys2Proof.Machine
end

