-- ==== Sys2Proof/Machine/Service.lean ====
section
/-! DEFINITION. Live actions of the marionette, islands and firmware cores (01, 16). -/

namespace Sys2Proof.Machine

/-! Live actions (R575-R579, R589). -/

/-- The island on which an action runs, 0x100 for none. -/
def actIsland (code target : Nat) : Nat :=
  match code with
  | 0x01 => 9 + target / 8
  | 0x02 => 6
  | 0x03 => 0x10 + target / 16
  | 0x04 => 0x10 + target / 16
  | 0x05 => 2 + target / 2
  | 0x08 => 8
  | 0x09 => 0x100
  | 0x0A => 7
  | 0x0B => 7
  | 0x0C => 6
  | 0x0E => 1
  | _ => target

def Action.island (a : Action) : Nat := actIsland a.code a.target

def Upd.running (u : Upd) : List Action := u.actions.filter fun a => a.state == 0

/-- An action may start beside those that run: at most four, one on any island (R578). -/
def Upd.mayStart (u : Upd) (code target : Nat) : Bool :=
  decide (u.running.length < 4) && !(u.running.any fun a => a.island == actIsland code target && actIsland code target != 0x100)

/-- The event of an action (R600). -/
def actData (a : Action) : Bytes := leBytes 1 a.code ++ leBytes 1 a.state ++ leBytes 4 a.target ++ leBytes 4 a.serial

/-- The drive or the host starts an action; it waits when it may not run yet (R578). (log 63 DEDUCED) -/
def Drive.startAction (code op target : Nat) (host : Bool) (d : Drive) : Drive :=
  let go := d.upd.mayStart code target && !(d.upd.actions.any fun a => a.state == 3)
  let a : Action := { serial := d.upd.actSerial + 1, code := code, op := op, target := target, state := if go then 0 else 3, host := host
                      start := d.clk.life, stop := 0, stall := 0 }
  let d := d.onUpd fun u => { u with actions := u.actions ++ [a], actSerial := a.serial }
  if go then d.raise 0x1F6 (actData a) else d

/-- Keeps the actions that run or wait and the 64 newest that ended (R589). -/
def keepActions (l : List Action) : List Action :=
  let ended := l.filter fun a => a.state == 1 || a.state == 2
  let old := (ended.take (ended.length - 64)).map (·.serial)
  l.filter fun a => !old.contains a.serial

/-- Starts the first waiting action that may run. -/
def Drive.nextAction (d : Drive) : Drive :=
  match d.upd.actions.find? fun a => a.state == 3 && d.upd.mayStart a.code a.target with
  | none => d
  | some a =>
    let b := { a with state := 0, start := d.clk.life }
    (d.onUpd fun u => { u with actions := updFirst (fun x => x.serial == a.serial) (fun _ => b) u.actions }).raise 0x1F6 (actData b)

/-- Records the end of an action (R575, R589). -/
def Drive.closeAction (serial : Nat) (ok : Bool) (stall : Nat) (d : Drive) : Drive :=
  match d.upd.actions.find? fun a => a.serial == serial && a.state == 0 with
  | none => d
  | some a =>
    let b := { a with state := if ok then 1 else 2, stop := d.clk.life, stall := stall }
    ((d.onUpd fun u => { u with actions := keepActions (updFirst (fun x => x.serial == serial) (fun _ => b) u.actions) }).raise 0x1F6
      (actData b)).nextAction

/-! Islands (R14-R17, R19). -/

/-- The island of a cluster. -/
def clusterIsland (c : Nat) : Nat := 9 + c

/-- State of an island as `ISL_STAT` reports it (R591): 0 running, 1 in reset, 3 power-gated, 4 fenced. The modes gate islands as
the table of the twelve modes gives. (log 132 DEDUCED) -/
def Drive.islState (i : Nat) (d : Drive) : Nat :=
  let m := d.pwr.cur
  let gated :=
    if i = 0 then false
    else if i = 1 then m == 0 || m == 8
    else if m == 0 || (m == 1 && d.upd.bootRun.isNone) || m == 2 || m == 8 then true
    else if m == 0xA then !([5, 8, 9].contains i || decide (0x10 ≤ i))
    else if m == 7 then decide (0x10 ≤ i)
    else if m == 9 then [2, 3, 4].contains i
    else false
  if gated then 3 else if d.upd.fenced.contains i then 4 else if d.upd.inReset.contains i then 1 else 0

/-! Firmware cores (R39-R42). -/

def bitsOf (v : BitVec 32) : List Nat := (List.range 32).filter fun i => v.getLsbD i
def maskOf (l : List Nat) : BitVec 32 := BitVec.ofNat 32 (sumBy (fun i => 2 ^ i) l)

/-- Working cores: those in the role whose cluster is not fenced. -/
def Upd.working (u : Upd) : List Nat := (bitsOf u.cores).filter fun c => !u.fenced.contains (clusterIsland (c / 8))

/-- The roles that BOOT gives the cores that pass (R39). -/
def coreRoles (pass : BitVec 32) : BitVec 32 × BitVec 32 :=
  let ofCluster := fun (c : Nat) => (bitsOf pass).filter fun i => i / 8 == c
  (maskOf ((List.range 4).flatMap fun c => (ofCluster c).take 6), maskOf ((List.range 4).flatMap fun c => ((ofCluster c).drop 6).take 2))

/-- A drive cause of READ-ONLY arises; it takes effect at the next epoch (R527, R528). A media cause is kept beside another one, as it never
goes (R377). (log 153 DESIGN CHOICE) -/
def Drive.wantReadOnly (cause : Nat) (d : Drive) : Drive :=
  let stands := if d.pwr.roWant ≠ 0 then d.pwr.roWant else d.pwr.roCause
  if stands < 2 ∨ (cause = 2 ∧ stands ≠ 2) then d.onPwr fun p => { p with roWant := cause } else d

/-- A working core leaves its role; a spare of its cluster takes over, or the work is shared (R40, R42). -/
def Drive.dropCore (core : Nat) (d : Drive) : Drive :=
  let mine := (bitsOf d.upd.spares).filter fun i => i / 8 == core / 8
  let d := d.onUpd fun u => { u with cores := u.cores &&& ~~~ (maskOf [core]), fencedCores := u.fencedCores ||| maskOf [core] }
  let d := match mine with
    | s :: _ =>
      (d.onUpd fun u => { u with cores := u.cores ||| maskOf [s], spares := u.spares &&& ~~~ (maskOf [s]) }).raise 0x00B
        (leBytes 1 core ++ leBytes 1 s)
    | [] =>
      let d := if ((bitsOf d.upd.cores).filter fun i => i / 8 == core / 8).isEmpty then
          d.onUpd fun u => { u with fenced := u.fenced ++ [clusterIsland (core / 8)] }
        else d
      d.raise 0x00C (leBytes 1 (core / 8) ++ leBytes 1 d.upd.working.length)
  if d.upd.working.length < 12 then d.wantReadOnly 3 else d

/-- A firmware core fails its checks (R40). -/
def Drive.coreFails (core : Nat) (d : Drive) : Drive :=
  if (bitsOf d.upd.cores).contains core then (d.dropCore core).startAction 0x01 0 core false
  else d.onUpd fun u => { u with spares := u.spares &&& ~~~ (maskOf [core]), fencedCores := u.fencedCores ||| maskOf [core] }

/-! Requests through `ISL_CMD` and `ISL_ACT` (R578, R579, R591). -/

/-- An action of the host is ignored: something runs on the same part, or an activation runs. -/
def Drive.actBusy (island : Nat) (d : Drive) : Bool :=
  (d.upd.running.any fun a => a.island == island) || d.upd.stage == 3 || d.upd.stage == 5

def Drive.actError (d : Drive) : Drive := d.onUpd fun u => { u with actErr := true }

/-- The islands that a command of `ISL_CMD` applies to (R579). -/
def islAllowed (cmd i : Nat) : Bool :=
  match cmd with
  | 1 => [2, 3, 9, 0xA, 0xB, 0xC].contains i
  | 2 => [2, 3, 9, 0xA, 0xB, 0xC].contains i
  | 3 => [2, 3, 6, 7, 9, 0xA, 0xB, 0xC].contains i || (decide (0x10 ≤ i) && decide (i ≤ 0x2F))
  | _ => false

/-- The action code of a command on an island (R575). -/
def islAction (i : Nat) : Nat :=
  if i = 2 ∨ i = 3 then 0x06 else if i = 6 then 0x0C else if i = 7 then 0x0A else if i ≥ 0x10 then 0x07 else 0x0D

/-- The last action that the host asked for through `ISL_CMD` or `ISL_ACT`. -/
def Upd.hostAction (u : Upd) : Option Action := (u.actions.filter fun a => a.host && !([8, 9, 0x0E].contains a.code)).getLast?

end Sys2Proof.Machine
end

