-- ==== Sys2Proof/Machine/Blocks.lean ====
section
/-! DEFINITION. The flash array: channels, die positions and dies, blocks, locators, frames and their slices, stripe rows with their
parity, stripe rebuilds (R333-R347). -/

namespace Sys2Proof.Machine

/-! Locators (R336). -/

def locCh (l : BitVec 48) : Nat := field l.toNat 30 5
def locPos (l : BitVec 48) : Nat := field l.toNat 26 4
def locPlane (l : BitVec 48) : Nat := field l.toNat 24 2
/-- Plane and block number. -/
def locBlock (l : BitVec 48) : Nat := field l.toNat 14 12
def locPage (l : BitVec 48) : Nat := field l.toNat 2 12
def locSlot (l : BitVec 48) : Nat := field l.toNat 0 2
def locGen (l : BitVec 48) : Nat := field l.toNat 40 8
/-- The cell-mode field. -/
def locMode (l : BitVec 48) : Nat := field l.toNat 35 2

/-- Pages of a block by the cell-mode field: QLC, 1-bit, 2-bit (R334). -/
def modePages (m : Nat) : Nat := if m = 0 then 4096 else if m = 1 then 1024 else if m = 2 then 2048 else 0

/-- The value names a codeword (R337). -/
def locNames (l : BitVec 48) : Bool :=
  field l.toNat 37 3 == 0 && locMode l != 3 && locPos l != 15 && decide (locPage l < modePages (locMode l))

/-- The stripe row of a codeword (R341). -/
def locRow (l : BitVec 48) : Nat := 4 * locPage l + locPlane l

/-! Channels and dies (R335, R371-R377). -/

def Channel.reset : Channel := { state := 0, spareUsed := false, vacant := [], retrains := 0, fails := 0 }

/-- Die `i`, channel * 16 + physical die, as made. -/
def Die.factory (i : Nat) : Die :=
  { state := if i % 16 = 15 then 1 else 0, pos := i % 16, ret := [0, 0, 0, 0], table := 0, entry := none, calAt := 0, lad := [0, 0, 0, 0, 0]
    pgmF := 0, ersF := 0, failed4 := [], silent := 0, gone := none }

/-- The offset of threshold `k` of a cell mode in entry `e` of the threshold table of die `i` (R345). -/
def Die.offset (i e : Nat) (mode k : Nat) (d : Die) : Int := Config.threshold i d.table (e % 16) mode k

def Med.chan (c : Nat) (m : Med) : Channel := lookupD m.chans c .reset
def Med.onChan (c : Nat) (f : Channel → Channel) (m : Med) : Med := { m with chans := setKey m.chans c (f (m.chan c)) }
def Med.die (i : Nat) (m : Med) : Die := lookupD m.dies i (.factory i)
def Med.onDie (i : Nat) (f : Die → Die) (m : Med) : Med := { m with dies := setKey m.dies i (f (m.die i)) }

/-- The physical die that serves a position of a channel. -/
def Med.posDie (c p : Nat) (m : Med) : Nat :=
  16 * c + (((List.range 16).find? fun k => (m.die (16 * c + k)).pos == p && (m.die (16 * c + k)).state != 3).getD p)

/-- A member that is read through step 5 alone (R347). -/
def Med.unavailable (c p : Nat) (m : Med) : Bool :=
  (m.chan c).state != 0 || (m.chan c).vacant.contains p || (m.die (m.posDie c p)).state == 2

/-! Blocks (R333, R338, R364, R366). -/

/-- A block by channel, die position, plane and number: its key in `Med.blocks`. -/
def blockKey (c p plane b : Nat) : Nat := ((16 * c + p) * 4 + plane) * 1024 + b

/-- Die position, and frame number where the block stands in its own frame. -/
def keyPos (k : Nat) : Nat := k / 4096 % 16
def keyFrame (k : Nat) : Nat := 1024 * keyPos k + k % 1024

def Med.block (k : Nat) (m : Med) : Block := lookupD m.blocks k { erases := m.swept, wear := 0, bad := false }
def Med.onBlock (k : Nat) (f : Block → Block) (m : Med) : Med := { m with blocks := setKey m.blocks k (f (m.block k)) }

/-- The block that a locator names. -/
def locKey (l : BitVec 48) : Nat := blockKey (locCh l) (locPos l) (locPlane l) (locBlock l % 1024)

/-- The generation of the locator is that of its block's last erase (R338). -/
def Med.genOk (l : BitVec 48) (m : Med) : Bool := (m.block (locKey l)).erases % 256 == locGen l

/-! Frames and slices (R339, R340). -/

/-- The block number of a slice in one plane: that of the frame, unless another good block was taken for it. -/
def sliceBlock (frame : Nat) (swaps : List (Nat × Nat)) (c plane : Nat) : Nat := lookupD swaps (4 * c + plane) (frame % 1024)

/-- The keys of the blocks of a frame; a lacking channel has none. -/
def frameBlocks (frame : Nat) (swaps : List (Nat × Nat)) (lacks : Option Nat) : List Nat :=
  ((List.range 32).filter fun c => some c != lacks).flatMap fun c => (List.range 4).map fun pl =>
    blockKey c (frame / 1024) pl (sliceBlock frame swaps c pl)

/-- All frames of a segment, or of what it left behind. -/
def Segment.exts (s : Segment) : List Extent := { id := s.id, frame := s.frame, lacks := s.lacks, swaps := s.swaps } :: s.more
def OldFrame.exts (o : OldFrame) : List Extent := { id := 0, frame := o.frame, lacks := o.lacks, swaps := o.swaps } :: o.more

/-- The keys of the blocks of frames. -/
def extBlocks (l : List Extent) : List Nat := l.flatMap fun x => frameBlocks x.frame x.swaps x.lacks

/-- The frames of segments and those that they left behind. -/
def Med.exts (m : Med) : List Extent := m.segs.flatMap fun s => s.exts ++ (match s.old with
  | some o => o.exts
  | none => [])

/-- The keys of the blocks in use: those of segments, of frames left behind and of frames set aside. -/
def Med.busyBlocks (m : Med) : List Nat := extBlocks (m.exts ++ m.aside.flatMap OldFrame.exts)

/-- Frames that index pages, map journal and checkpoints, hold-up flush area and recorder carousel take: 4,417 GiB at 7.5 GiB each (R38). -/
def setAside : Nat := 589

/-- Frames for segments; those set aside follow them. -/
def dataFrames : Nat := 15360 - setAside

/-- The slices of a frame, channel and plane. -/
def slices (lacks : Option Nat) : List (Nat × Nat) :=
  ((List.range 32).filter fun c => some c != lacks).flatMap fun c => (List.range 4).map fun pl => (c, pl)

/-- The block that can serve in a slice of a frame: its own, unless it is retired or in another slice, else the lowest good block that is free
(R339, R364). (log 148 DESIGN CHOICE) -/
def Med.sliceFor (busy : List Nat) (frame : Nat) (m : Med) (x : Nat × Nat) : Option Nat :=
  let can := fun (b : Nat) =>
    let k := blockKey x.1 (frame / 1024) x.2 b
    !(m.block k).bad && !busy.contains k
  if can (frame % 1024) then some (frame % 1024)
  else (List.range 1024).find? fun b => decide (1024 * (frame / 1024) + b < dataFrames) && can b

/-- The blocks in use at the die position of a frame. -/
def Med.busyAt (frame : Nat) (m : Med) : List Nat := m.busyBlocks.filter fun k => keyPos k == frame / 1024

/-- Every slice of a frame finds a good block. -/
def Med.forms (frame : Nat) (lacks : Option Nat) (m : Med) : Bool :=
  let busy := m.busyAt frame
  (slices lacks).all fun x => (m.sliceFor busy frame x).isSome

/-- The slices of a frame that another block than its own serves. -/
def Med.swapsFor (frame : Nat) (lacks : Option Nat) (m : Med) : List (Nat × Nat) :=
  let busy := m.busyAt frame
  (slices lacks).filterMap fun x =>
    match m.sliceFor busy frame x with
    | some b => if b = frame % 1024 then none else some (4 * x.1 + x.2, b)
    | none => none

/-- Wear of one cycle in tenths (R334). -/
def Cell.wear : Cell → Nat
  | .qlc => 10
  | .archive => 5
  | .index => 5
  | .buffer => 1

/-- A cycle of the blocks of a frame ends, with `n` erases of each (R334). -/
def Med.cycle (n frame : Nat) (swaps : List (Nat × Nat)) (lacks : Option Nat) (cell : Cell) (m : Med) : Med :=
  (frameBlocks frame swaps lacks).foldl (fun m k => m.onBlock k fun b => { b with erases := b.erases + n, wear := b.wear + cell.wear }) m

/-- A cycle of several frames. -/
def Med.cycles (n : Nat) (l : List Extent) (cell : Cell) (m : Med) : Med := l.foldl (fun m x => m.cycle n x.frame x.swaps x.lacks cell) m

/-- All blocks of frames are erased together. -/
def Med.eraseFrames (l : List Extent) (cell : Cell) (m : Med) : Med := m.cycles 1 l cell

/-- Every segment is given up (R584 step 4): a cycle of its blocks ends, with `n` erases of each. -/
def Med.giveUp (n : Nat) (m : Med) : Med :=
  m.segs.foldl (fun m s =>
    let m := m.cycles n s.exts s.cell
    match s.old with
    | some o => m.cycles n o.exts o.cell
    | none => m) m

/-! The frames set aside (R38, R334, R341). Each kind is programmed in turn, frame after frame; a frame is erased before it is programmed
again. (log 149 DESIGN CHOICE) -/

/-- The kinds: index pages, map journal and checkpoints, hold-up flush area, recorder carousel. The frames of each: first and number. -/
def asideFrames (kind : Nat) : Nat × Nat :=
  if kind = 0 then (dataFrames, 546) else if kind = 1 then (dataFrames + 546, 34) else if kind = 2 then (dataFrames + 580, 8) else (dataFrames + 588, 1)
def asideCell (kind : Nat) : Cell := if kind = 0 then .index else .buffer

/-- The channels that cannot serve in a frame: lost, or without a die at the frame's position (R373, R375). -/
def Med.lackers (frame : Nat) (m : Med) : List Nat :=
  (List.range 32).filter fun c => (m.chan c).state == 2 || (m.chan c).vacant.contains (frame / 1024)

/-- The channel that a new segment in a frame lacks: the lost one, or one that is vacant at the frame's position (R373, R375). -/
def Med.lacking (frame : Nat) (m : Med) : Option Nat := m.chLost.or (m.lackers frame).head?

/-- Data per segment (R341). -/
def Cell.dataSize : Cell → Nat
  | .qlc => 15 * 2 ^ 29
  | .archive => 7 * 2 ^ 29
  | .buffer => 15 * 2 ^ 27
  | .index => 15 * 2 ^ 28

/-- A frame set aside is programmed from its beginning, in the layout of now: it is erased first when it held data. -/
def Med.asideOpen (frame : Nat) (cell : Cell) (m : Med) : Med :=
  let m := match m.aside.find? fun o => o.frame == frame with
    | some o => { (m.eraseFrames o.exts o.cell) with aside := m.aside.filter fun o => o.frame != frame }
    | none => m
  let lacks := m.lacking frame
  { m with aside := m.aside ++ [{ frame := frame, cell := cell, lacks := lacks, swaps := m.swapsFor frame lacks }] }

/-- `n` more bytes of a kind are programmed. -/
def Med.asideWrite (kind n : Nat) (m : Med) : Med :=
  let size := (asideCell kind).dataSize
  let w := m.asideAt.getD kind 0
  let from_ := (w + size - 1) / size
  let fs := asideFrames kind
  let m' := (List.range ((w + n + size - 1) / size - from_)).foldl (fun m j => m.asideOpen (fs.1 + (from_ + j) % fs.2) (asideCell kind)) m
  { m' with asideAt := (numbered m'.asideAt).map fun x => if x.1 = kind then x.2 + n else x.2 }

/-- Every block of every die is erased but for those of the recorder carousel (R584 step 5); index pages, journal and hold-up area begin anew. -/
def Med.sweep (m : Med) : Med :=
  let keep := (frameBlocks (asideFrames 3).1 [] none).map fun k => (k, m.block k)
  let rec_ := asideFrames 3
  let m := { m with
    blocks := m.blocks.map fun b => (b.1, { b.2 with erases := b.2.erases + 1 }), swept := m.swept + 1, asideUnits := []
    aside := m.aside.filter fun o => decide (rec_.1 ≤ o.frame) && decide (o.frame < rec_.1 + rec_.2)
    asideAt := (numbered m.asideAt).map fun x => if x.1 = 3 then x.2 else 0 }
  keep.foldl (fun m x => m.onBlock x.1 fun _ => x.2) m

/-- Frames whose own blocks have worn. -/
def Med.wornFrames (m : Med) : List Nat := ((m.blocks.filter fun x => x.2.wear != 0).map fun x => keyFrame x.1).eraseDups

/-- Wear of a frame: that of its most worn block (R366). -/
def Med.frameWear (f : Nat) (m : Med) : Nat := ((m.blocks.filter fun x => keyFrame x.1 == f).map (·.2.wear)).foldl max 0

/-- Wear of the 4,096 blocks of a die position, in tenths: mean and highest (R385). -/
def Med.posWear (ch pos : Nat) (m : Med) : Nat × Nat :=
  if pos ≥ 15 then (0, 0)
  else
    let l := (m.blocks.filter fun b => b.1 / 4096 == 16 * ch + pos).map (·.2.wear)
    (sumBy id l / 4096, l.foldl max 0)

/-- Wear of the blocks of a physical die: those of the position that it serves, or what they had worn when it was retired (R384, R385). -/
def Med.dieWear (i : Nat) (m : Med) : Nat × Nat := (m.die i).gone.getD (m.posWear (i / 16) (m.die i).pos)

/-- Wear of a segment's most worn block (R366). -/
def Med.segWear (s : Segment) (m : Med) : Nat := ((extBlocks s.exts).map fun k => (m.block k).wear).foldl max 0

/-- The frame holds the codeword. -/
def Extent.holds (l : BitVec 48) (x : Extent) : Bool :=
  x.frame / 1024 == locPos l && sliceBlock x.frame x.swaps (locCh l) (locPlane l) == locBlock l % 1024

/-- The segment of a codeword. -/
def Med.segOf (l : BitVec 48) (m : Med) : Option Segment := m.segs.find? fun s => s.exts.any (·.holds l)

/-! Stripe rows and parity (R341-R343). -/

/-- The channels of a segment that lacks a channel or none, in ascending order. -/
def members (lacks : Option Nat) : List Nat := (List.range 32).filter fun c => some c != lacks

/-- The parity channels of stripe row `r` (R342). -/
def parityChannels (cell : Cell) (lacks : Option Nat) (r : Nat) : List Nat :=
  match lacks, cell with
  | none, .archive => (List.range 4).map fun i => 4 * (r % 8) + i
  | none, _ => [2 * (r % 16), 2 * (r % 16) + 1]
  | some _, .archive => (List.range 3).map fun i => (members lacks).getD ((3 * r + i) % 31) 0
  | some _, _ => [(members lacks).getD (r % 31) 0]

/-- The data channels of a stripe row. -/
def dataChannels (cell : Cell) (lacks : Option Nat) (r : Nat) : List Nat :=
  (members lacks).filter fun c => !(parityChannels cell lacks r).contains c

/-- The parity group of a channel in its row: the even or the odd channels of a layout with two XOR groups, else all members (R341). -/
def parityGroup (cell : Cell) (lacks : Option Nat) (c : Nat) : List Nat :=
  match lacks, cell with
  | none, .archive => members none
  | none, _ => (members none).filter fun x => x % 2 == c % 2
  | some _, _ => members lacks

/-- The cell-mode field of a cell mode. -/
def Cell.code : Cell → Nat
  | .qlc => 0
  | .buffer => 1
  | .archive => 2
  | .index => 2

/-- The locator of the codeword that holds offset `off` of a segment's data space (R336, R343). -/
def Med.locate (s : Segment) (off : Nat) (m : Med) : Nat :=
  let width := 16384 * (dataChannels s.cell s.lacks 0).length
  let row := off / width
  let c := (dataChannels s.cell s.lacks row).getD (off % width / 16384) 0
  let b := sliceBlock s.frame s.swaps c (row % 4)
  let gen := (m.block (blockKey c (s.frame / 1024) (row % 4) b)).erases
  fbits 40 8 gen + fbits 35 2 s.cell.code + fbits 30 5 c + fbits 26 4 (s.frame / 1024) + fbits 24 2 row + fbits 14 10 b
    + fbits 2 12 (row / 4) + fbits 0 2 (off % 16384 / 4096)

/-! Stripe rebuilds (R346). -/

/-- The cell mode and the lacking channel of a codeword's stripe as they were when it was programmed: those of its segment, or of its frame
set aside; a frame of which nothing is known was programmed with all channels. -/
def Med.layoutOf (page : Bool) (l : BitVec 48) (m : Med) : Cell × Option Nat :=
  match m.segOf l with
  | some s => (s.cell, ((s.exts.find? (·.holds l)).map (·.lacks)).getD s.lacks)
  | none =>
    match m.aside.find? fun o => o.exts.any (·.holds l) with
    | some o => (o.cell, o.lacks)
    | none => (if page then .index else if locMode l = 0 then .qlc else if locMode l = 1 then .buffer else .archive, none)

/-- How many more members of a parity group of the segment may fail: the smallest number over its groups (R341, R375). -/
def Med.protection (s : Segment) (m : Med) : Nat :=
  let out := fun (c : Nat) => m.unavailable c (s.frame / 1024)
  let parity := (parityChannels s.cell s.lacks 0).length
  let groups := if (parityGroup s.cell s.lacks 0).length < 31 then [0, 1] else [(members s.lacks).headD 0]
  (groups.map fun g => (if groups.length = 2 then parity / 2 else parity) - ((parityGroup s.cell s.lacks g).filter out).length).foldl min 4

/-- The members of a codeword's parity group that count as failed: the target, those that `failed` names, which fail steps 1 to 3, and those
that are unavailable. -/
def Med.failedMembers (page : Bool) (l : BitVec 48) (failed : BitVec 32) (m : Med) : List Nat :=
  let x := m.layoutOf page l
  (parityGroup x.1 x.2 (locCh l)).filter fun c => c == locCh l || failed.getLsbD c || m.unavailable c (locPos l)

/-- The parity members of a codeword's group. -/
def Med.parityMembers (page : Bool) (l : BitVec 48) (m : Med) : List Nat :=
  let x := m.layoutOf page l
  (parityGroup x.1 x.2 (locCh l)).filter (parityChannels x.1 x.2 (locRow l)).contains

/-- The rebuild gives the data. -/
def Med.rebuilds (page : Bool) (l : BitVec 48) (failed : BitVec 32) (m : Med) : Bool :=
  decide ((m.failedMembers page l failed).length ≤ (m.parityMembers page l).length)

end Sys2Proof.Machine
end

