-- ==== Sys2Proof/Machine/DramQueue.lean ====
section
/-! DEFINITION. The request queues of the DRAM channels: arrival with merging and forwarding, the choice of the next request, the drain of
writes, open rows and page policy (R486, R490-R496). -/

namespace Sys2Proof.Machine

/-! One channel. -/

/-- Bank and row of a line within its channel (R492). -/
def DramReq.place (r : DramReq) : Nat × Nat := Config.dramPlace r.line

/-- The request hits a row that is open (R492). -/
def DramQueue.hits (q : DramQueue) (r : DramReq) : Bool := q.rows.any fun x => (x.bank, x.row) == r.place

/-- The request has waited 2 us or more at life clock `now`. -/
def DramReq.aged (now : Nat) (r : DramReq) : Bool := decide (r.since + 2000 ≤ now)

/-- The write queue's entry of the request's line. -/
def DramQueue.entry (q : DramQueue) (r : DramReq) : Option DramReq := q.wq.find? fun w => w.line == r.line

/-- The subchannel of a line, `true` for B: units of 256 bytes are interleaved over the two (R486). -/
def DramReq.subB (r : DramReq) : Bool := r.line / 4 % 2 == 1

/-- The request's subchannel has stopped for a replay (R497). -/
def DramQueue.halted (q : DramQueue) (r : DramReq) : Bool := q.stopped.contains r.subB

/-- A read that is served without the DRAM: an entry of the write queue covers it, or during a replay a write of the retry buffer (R496,
R497). -/
def DramQueue.covers (q : DramQueue) (r : DramReq) : Bool :=
  (q.wq ++ q.retry.filter fun w => w.write && q.halted w).any fun w => w.line == r.line && r.mask &&& w.mask == r.mask

/-- The queue can take the request: a write that merges or finds room, a read that is served at once or finds room (R491, R496). -/
def DramQueue.takes (q : DramQueue) (r : DramReq) : Bool :=
  if r.write then (q.entry r).isSome || decide (q.wq.length < 128) else q.covers r || decide (q.rq.length < 128)

/-- A request arrives at a queue that takes it (R496). A write merges into the entry of its line. A read that is covered is served at once;
one that an entry covers in part puts that entry's write before all others. -/
def DramQueue.arrive (q : DramQueue) (r : DramReq) : DramQueue :=
  if !r.write && q.covers r then { q with fwd := wrap32 (q.fwd + 1) }
  else
    match q.entry r with
    | some w =>
      if r.write then { q with wq := updFirst (fun x => x.line == r.line) (fun x => { x with mask := x.mask ||| r.mask }) q.wq }
      else if r.mask &&& w.mask == 0 then { q with rq := q.rq ++ [r] }
      else { q with wq := updFirst (fun x => x.line == r.line) (fun x => { x with urgent := true }) q.wq, rq := q.rq ++ [r] }
    | none => if r.write then { q with wq := q.wq ++ [r] } else { q with rq := q.rq ++ [r] }

/-- A request comes from its island: it waits there while its queue is full or others wait (R491). -/
def DramQueue.submit (q : DramQueue) (r : DramReq) : DramQueue :=
  if q.held.isEmpty && q.takes r then q.arrive r else { q with held := q.held ++ [r] }

/-- Waiting requests enter in order as far as the queues take them. -/
def DramQueue.letIn : List DramReq → DramQueue → DramQueue
  | [], q => { q with held := [] }
  | r :: rs, q => if q.takes r then (q.arrive r).letIn rs else { q with held := r :: rs }

/-- The order of R492: requests that have waited 2 us, oldest first; hits on open rows by class and age; the others by class and age. -/
def DramQueue.rank (now : Nat) (q : DramQueue) (r : DramReq) : Nat × Nat × Nat :=
  if r.aged now then (0, 0, r.since) else if q.hits r then (1, r.cls, r.since) else (2, r.cls, r.since)

/-- Lexicographic order of ranks. -/
def rankLt (a b : Nat × Nat × Nat) : Bool :=
  decide (a.1 < b.1) || (a.1 == b.1 && (decide (a.2.1 < b.2.1) || (a.2.1 == b.2.1 && decide (a.2.2 < b.2.2))))

/-- The first of the requests of lowest rank. -/
def DramQueue.best (now : Nat) (q : DramQueue) : List DramReq → Option DramReq
  | [] => none
  | r :: rs =>
    match q.best now rs with
    | none => some r
    | some x => if rankLt (q.rank now x) (q.rank now r) then some x else some r

/-- The write queue drains from 96 entries down to 32 (R493). -/
def DramQueue.drain (q : DramQueue) : DramQueue :=
  { q with draining := if 96 ≤ q.wq.length then true else if q.wq.length ≤ 32 then false else q.draining }

/-- The requests among which the next one is chosen: the write that a read waits for; while writes leave, the writes and the aged reads; else
the reads and the aged writes (R492, R493, R496); none of a subchannel that stopped (R497). (log 126 DEDUCED) -/
def DramQueue.candidates (now : Nat) (q : DramQueue) : List DramReq :=
  let rq := q.rq.filter fun r => !q.halted r
  let wq := q.wq.filter fun r => !q.halted r
  match wq.filter (·.urgent) with
  | [] => if q.draining || rq.isEmpty then wq ++ rq.filter (·.aged now) else rq ++ wq.filter (·.aged now)
  | l => l

/-- The row that an access opened or used, by the request's hint (R494, R495): a CLOSE precharge is withheld while another request hits the
row. -/
def DramQueue.useRow (now : Nat) (r : DramReq) (q : DramQueue) : DramQueue :=
  let p := r.place
  let rest := q.rows.filter fun x => x.bank != p.1
  let more := (q.rq ++ q.wq).any fun x => x.place == p
  if r.hint == .close && !more then { q with rows := rest }
  else { q with rows := rest ++ [{ bank := p.1, row := p.2, last := now, hint := r.hint }] }

/-- One request goes to the devices. -/
def DramQueue.serve (now : Nat) (q : DramQueue) : DramQueue :=
  let q := q.drain
  match q.best now (q.candidates now) with
  | none => q
  | some r =>
    ({ q with
      rq := if r.write then q.rq else q.rq.erase r, wq := if r.write then q.wq.erase r else q.wq
      retry := q.retry ++ [r] } : DramQueue).useRow now r

/-- Rows without a hint close after `idle` controller cycles of 0.625 ns without an access (R494). -/
def DramQueue.idleRows (now idle : Nat) (q : DramQueue) : DramQueue :=
  { q with rows := q.rows.filter fun x => !(x.hint == .none && decide (8 * x.last + 5 * idle ≤ 8 * now)) }

/-- A tick in which `n` requests are served. Commands leave the retry buffer after 32 controller cycles, 20 ns, without an alert of their
subchannel; those of a stopped one stay (R497). (log 138 DEDUCED) -/
def DramQueue.tick (now idle n : Nat) (q : DramQueue) : DramQueue :=
  let q := n.repeat (DramQueue.serve now) { q with retry := q.retry.filter q.halted }
  DramQueue.letIn q.held (q.idleRows now idle)

/-! The controller (R486, R490). -/

/-- Channels in service. -/
def Dmc.working (m : Dmc) : List Nat := (List.range 4).filter fun n => (m.chans.getD n .reset).state != 5

/-- The channel of a line: 4 KiB units are interleaved over the channels (R486). -/
def Dmc.lineChan (line : Nat) (m : Dmc) : Nat := m.working.getD (line / 64 % m.working.length) 0

def Dmc.queue (n : Nat) (m : Dmc) : DramQueue := m.queues.getD n .empty

def Dmc.submitTo (n : Nat) (r : DramReq) (m : Dmc) : Dmc :=
  { m with queues := (numbered m.queues).map fun x => if x.1 == n then x.2.submit r else x.2 }

/-- The requests of a channel that has left the map go to the channels that its lines now lie on (R502). -/
def Dmc.rehome (n : Nat) (m : Dmc) : Dmc :=
  let q := m.queue n
  let m : Dmc := { m with queues := (numbered m.queues).map fun x => if x.1 == n then { DramQueue.empty with fwd := x.2.fwd } else x.2 }
  (q.wq ++ q.rq ++ q.held).foldl (fun m r => m.submitTo (m.lineChan r.line) { r with urgent := false }) m

/-- The regions that are kept twice: their codes in R499. -/
def mirrored (region : Nat) : Bool := decide (3 ≤ region) && decide (region ≤ 7)

/-- A request to the DRAM: a write of a mirrored region goes to the next channel too (R490). -/
def Dmc.submit (u : DramUse) (line now : Nat) (m : Dmc) : Dmc :=
  let r : DramReq := { write := u.write, cls := u.cls, hint := u.hint, line := line, mask := 2 ^ 64 - 1, since := now, urgent := false }
  let c := m.lineChan line
  let m' := m.submitTo c r
  if u.write && mirrored u.region then m'.submitTo (((m.working.filter (c < ·)) ++ m.working).headD 0) r else m'

/-- `n` lines of a region from line `first` on. -/
def Drive.dram (u : DramUse) (first n : Nat) (d : Drive) : Drive :=
  d.onDmc fun m => (List.range n).foldl (fun m k => m.submit u (Config.dramLine u.region (first + k)) d.clk.life) m

/-- Requests that a channel serves in a tick of 40 ns at its speed: 204.8 GB/s over four channels at 6,400 MT/s (R507). -/
def perTick (speed : Nat) : Nat := 8 * (speed + 1)

/-- ALERT_n of a subchannel: nothing more is issued to it until its retry buffer is replayed (R497). -/
def Dmc.halt (n : Nat) (sub : Bool) (m : Dmc) : Dmc :=
  { m with queues := (numbered m.queues).map fun x =>
      if x.1 == n && !x.2.stopped.contains sub then { x.2 with stopped := x.2.stopped ++ [sub] } else x.2 }

/-- The replay of a channel has succeeded: its commands have left the retry buffer. -/
def Dmc.resume (n : Nat) (m : Dmc) : Dmc :=
  { m with queues := (numbered m.queues).map fun x => if x.1 == n then { x.2 with stopped := [], retry := [] } else x.2 }

/-- A tick of the queues; a channel that trains or switches serves nothing, one that replays serves the subchannel that has not stopped. A
patrol that runs reads one more line where nothing waits (R489, R491). -/
def Dmc.tick (now : Nat) (m : Dmc) : Dmc :=
  let m := if m.patrol && m.queues.all fun q => q.rq.isEmpty && q.wq.isEmpty then
      { m.submit { write := false, cls := 2, hint := .keepOpen, region := 8 } m.patrolLine now with
        patrolLine := m.patrolLine + 1, patrolPct := min 100 ((m.patrolLine + 1) * 100 / (2 ^ 28 * m.working.length)) }
    else m
  { m with queues := (numbered m.queues).map fun x =>
      let c := m.chans.getD x.1 .reset
      if c.state ≤ 1 && c.speed != 0 then x.2.tick now m.page (perTick c.speed) else x.2 }

/-! Who asks (R491, R494). -/

def useProbe : DramUse := { write := false, cls := 0, hint := .close, region := 9 }
def usePageCopy : DramUse := { write := true, cls := 1, hint := .keepOpen, region := 9 }
def useStaging : DramUse := { write := true, cls := 1, hint := .keepOpen, region := 0 }
def useValueRead : DramUse := { write := false, cls := 0, hint := .keepOpen, region := 10 }
def useValueFill : DramUse := { write := true, cls := 1, hint := .keepOpen, region := 10 }
def useDedup : DramUse := { write := false, cls := 1, hint := .close, region := 5 }
def useSegTable : DramUse := { write := false, cls := 0, hint := .close, region := 6 }
def useJournal : DramUse := { write := true, cls := 1, hint := .none, region := 3 }
def useMetadata : DramUse := { write := true, cls := 2, hint := .none, region := 1 }
def useImport : DramUse := { write := false, cls := 2, hint := .none, region := 7 }
def useExport : DramUse := { write := true, cls := 2, hint := .none, region := 7 }

end Sys2Proof.Machine
end

