-- ==== Sys2Proof/Machine/Digest.lean ====
section
/-! DEFINITION. The digests and keyed functions the spec names: SHA-256, SHA-384, SHA-512, SHA3-256, HMAC, HKDF-SHA-256,
SipHash-2-4 and the Ethernet CRC-32 (R62, R64, R96, R290, R425, R477). The algorithms are those of the public standards
(PRESUMED: the spec names them and does not restate them). -/

namespace Sys2Proof.Machine

/-- Blocks of `n` elements, the last one short when the length is no multiple of `n`. -/
def blocks (n : Nat) (bs : Bytes) : List Bytes :=
  (List.range ((bs.length + n - 1) / n)).map fun i => (bs.drop (i * n)).take n

/-- A hash word of `w` bits from big-endian bytes. -/
def beWord (w : Nat) (bs : Bytes) : BitVec w := BitVec.ofNat w (beNat bs)

/-- A table of `n` words of `w` bits, packed into one number with the first word highest. -/
def packed (w n x : Nat) : List (BitVec w) := (List.range n).map fun i => BitVec.ofNat w (x >>> (w * (n - 1 - i)))

/-- Round constants of SHA-256. -/
def sha256K : List (BitVec 32) :=
  packed 32 16 0x428a2f9871374491b5c0fbcfe9b5dba53956c25b59f111f1923f82a4ab1c5ed5d807aa9812835b01243185be550c7dc372be5d7480deb1fe9bdc06a7c19bf174 ++
  packed 32 16 0xe49b69c1efbe47860fc19dc6240ca1cc2de92c6f4a7484aa5cb0a9dc76f988da983e5152a831c66db00327c8bf597fc7c6e00bf3d5a7914706ca635114292967 ++
  packed 32 16 0x27b70a852e1b21384d2c6dfc53380d13650a7354766a0abb81c2c92e92722c85a2bfe8a1a81a664bc24b8b70c76c51a3d192e819d6990624f40e3585106aa070 ++
  packed 32 16 0x19a4c1161e376c082748774c34b0bcb5391c0cb34ed8aa4a5b9cca4f682e6ff3748f82ee78a5636f84c878148cc7020890befffaa4506cebbef9a3f7c67178f2
/-- Round constants of SHA-512. -/
def sha512K : List (BitVec 64) :=
  packed 64 8 0x428a2f98d728ae227137449123ef65cdb5c0fbcfec4d3b2fe9b5dba58189dbbc3956c25bf348b53859f111f1b605d019923f82a4af194f9bab1c5ed5da6d8118 ++
  packed 64 8 0xd807aa98a303024212835b0145706fbe243185be4ee4b28c550c7dc3d5ffb4e272be5d74f27b896f80deb1fe3b1696b19bdc06a725c71235c19bf174cf692694 ++
  packed 64 8 0xe49b69c19ef14ad2efbe4786384f25e30fc19dc68b8cd5b5240ca1cc77ac9c652de92c6f592b02754a7484aa6ea6e4835cb0a9dcbd41fbd476f988da831153b5 ++
  packed 64 8 0x983e5152ee66dfaba831c66d2db43210b00327c898fb213fbf597fc7beef0ee4c6e00bf33da88fc2d5a79147930aa72506ca6351e003826f142929670a0e6e70 ++
  packed 64 8 0x27b70a8546d22ffc2e1b21385c26c9264d2c6dfc5ac42aed53380d139d95b3df650a73548baf63de766a0abb3c77b2a881c2c92e47edaee692722c851482353b ++
  packed 64 8 0xa2bfe8a14cf10364a81a664bbc423001c24b8b70d0f89791c76c51a30654be30d192e819d6ef5218d69906245565a910f40e35855771202a106aa07032bbd1b8 ++
  packed 64 8 0x19a4c116b8d2d0c81e376c085141ab532748774cdf8eeb9934b0bcb5e19b48a8391c0cb3c5c95a634ed8aa4ae3418acb5b9cca4f7763e373682e6ff3d6b2b8a3 ++
  packed 64 8 0x748f82ee5defb2fc78a5636f43172f6084c87814a1f0ab728cc702081a6439ec90befffa23631e28a4506cebde82bde9bef9a3f7b2c67915c67178f2e372532b ++
  packed 64 8 0xca273eceea26619cd186b8c721c0c207eada7dd6cde0eb1ef57d4f7fee6ed17806f067aa72176fba0a637dc5a2c898a6113f9804bef90dae1b710b35131c471b ++
  packed 64 8 0x28db77f523047d8432caab7b40c724933c9ebe0a15c9bebc431d67c49c100d4c4cc5d4becb3e42b6597f299cfc657e2a5fcb6fab3ad6faec6c44198c4a475817
/-- Initial state of SHA-256. -/
def sha256Init : List (BitVec 32) :=
  packed 32 8 0x6a09e667bb67ae853c6ef372a54ff53a510e527f9b05688c1f83d9ab5be0cd19
/-- Initial state of SHA-512. -/
def sha512Init : List (BitVec 64) :=
  packed 64 8 0x6a09e667f3bcc908bb67ae8584caa73b3c6ef372fe94f82ba54ff53a5f1d36f1510e527fade682d19b05688c2b3e6c1f1f83d9abfb41bd6b5be0cd19137e2179
/-- Initial state of SHA-384. -/
def sha384Init : List (BitVec 64) :=
  packed 64 8 0xcbbb9d5dc1059ed8629a292a367cd5079159015a3070dd17152fecd8f70e593967332667ffc00b318eb44a8768581511db0c2e0d64f98fa747b5481dbefa4fa4

/-- The rotation and shift amounts of one hash of the SHA-2 family: big sigma 0 and 1, small sigma 0 and 1. -/
structure Sha2 (w : Nat) where
  block : Nat
  S0 : Nat × Nat × Nat
  S1 : Nat × Nat × Nat
  s0 : Nat × Nat × Nat
  s1 : Nat × Nat × Nat
  k  : List (BitVec w)

/-- Three rotations combined. -/
def rot3 {w : Nat} (r : Nat × Nat × Nat) (x : BitVec w) : BitVec w :=
  x.rotateRight r.1 ^^^ x.rotateRight r.2.1 ^^^ x.rotateRight r.2.2

/-- Two rotations and a shift combined. -/
def rotShift {w : Nat} (r : Nat × Nat × Nat) (x : BitVec w) : BitVec w :=
  x.rotateRight r.1 ^^^ x.rotateRight r.2.1 ^^^ x >>> r.2.2

/-- Extends the schedule (newest word first) by `n` words. -/
def sha2Extend {w : Nat} (p : Sha2 w) : Nat → List (BitVec w) → List (BitVec w)
  | 0, ws => ws
  | n + 1, ws =>
    let back := fun (i : Nat) => (ws.drop (i - 1)).headD 0
    sha2Extend p n ((back 16 + back 7 + rotShift p.s0 (back 15) + rotShift p.s1 (back 2)) :: ws)

/-- The working state: the four words of the first half, newest first, and those of the second. -/
abbrev Halves (w : Nat) := List (BitVec w) × List (BitVec w)

/-- One round: each half takes in one word and lets its oldest go. -/
def sha2Round {w : Nat} (p : Sha2 w) (st : Halves w) (kw : BitVec w × BitVec w) : Halves w :=
  match st with
  | ([x, x', x'', out], [y, y', y'', last]) =>
    let mix := kw.1 + kw.2 + last + rot3 p.S1 y + (y'' ^^^ (y &&& (y' ^^^ y'')))
    ([mix + rot3 p.S0 x + ((x &&& x') ||| (x'' &&& (x ||| x'))), x, x', x''], [out + mix, y, y', y''])
  | _ => st

/-- Compression of one block. -/
def sha2Block {w : Nat} (p : Sha2 w) (st : Halves w) (blk : Bytes) : Halves w :=
  let first := (blocks (w / 8) blk).map (beWord w)
  let sched := (sha2Extend p (p.k.length - 16) first.reverse).reverse
  let r := (p.k.zip sched).foldl (sha2Round p) st
  (List.zipWith (· + ·) st.1 r.1, List.zipWith (· + ·) st.2 r.2)

/-- The padded message: a 1 bit, zeros, and the bit length in the last 8 or 16 bytes. -/
def sha2Pad (block lenBytes : Nat) (m : Bytes) : Bytes :=
  let z := (2 * block - (m.length + 1 + lenBytes) % block) % block
  m ++ [0x80] ++ fill z 0 ++ beBytes lenBytes (8 * m.length)

/-- The digest: the words of both halves, most significant byte first. -/
def sha2 {w : Nat} (p : Sha2 w) (init : List (BitVec w)) (m : Bytes) : Bytes :=
  let r := (blocks p.block (sha2Pad p.block (p.block / 8) m)).foldl (sha2Block p) (init.take 4, init.drop 4)
  (r.1 ++ r.2).flatMap fun x => beBytes (w / 8) x.toNat

def sha256P : Sha2 32 := ⟨64, (2, 13, 22), (6, 11, 25), (7, 18, 3), (17, 19, 10), sha256K⟩
def sha512P : Sha2 64 := ⟨128, (28, 34, 39), (14, 18, 41), (1, 8, 7), (19, 61, 6), sha512K⟩

/-- SHA-256. (log 10 PRESUMED) -/
def sha256 (m : Bytes) : Bytes := sha2 sha256P sha256Init m
/-- SHA-384. -/
def sha384 (m : Bytes) : Bytes := (sha2 sha512P sha384Init m).take 48
/-- SHA-512. -/
def sha512 (m : Bytes) : Bytes := sha2 sha512P sha512Init m

/-- Rotation offsets of Keccak's rho step along the pi permutation, by lane `x + 5 y`. -/
def keccakRho : List Nat :=
  [0, 1, 62, 28, 27, 36, 44, 6, 55, 20, 3, 10, 43, 25, 39, 41, 45, 15, 21, 8, 18, 2, 61, 56, 14]

/-- Round constants of Keccak-f[1600]. -/
def keccakRC : List (BitVec 64) :=
  [0x1, 0x8082, 0x800000000000808a, 0x8000000080008000, 0x808b, 0x80000001, 0x8000000080008081, 0x8000000000008009, 0x8a, 0x88, 0x80008009, 0x8000000a] ++
  [0x8000808b, 0x800000000000008b, 0x8000000000008089, 0x8000000000008003, 0x8000000000008002, 0x8000000000000080, 0x800a, 0x800000008000000a, 0x8000000080008081, 0x8000000000008080, 0x80000001, 0x8000000080008008]

/-- One Keccak round on 25 lanes. -/
def keccakRound (a : List (BitVec 64)) (rc : BitVec 64) : List (BitVec 64) :=
  let g := fun (l : List (BitVec 64)) (i : Nat) => l.getD i 0
  let c := (List.range 5).map fun x => g a x ^^^ g a (x + 5) ^^^ g a (x + 10) ^^^ g a (x + 15) ^^^ g a (x + 20)
  let d := (List.range 5).map fun x => g c ((x + 4) % 5) ^^^ (g c ((x + 1) % 5)).rotateLeft 1
  let t := (List.range 25).map fun i => (g a i ^^^ g d (i % 5)).rotateLeft (keccakRho.getD i 0)
  -- lane (x, y) of the permuted state comes from lane ((x + 3 y) mod 5, x)
  let b := (List.range 25).map fun i => g t ((i % 5 + 3 * (i / 5)) % 5 + 5 * (i % 5))
  (List.range 25).map fun i =>
    let x := i % 5
    let y := i / 5 * 5
    let v := g b i ^^^ (~~~(g b ((x + 1) % 5 + y)) &&& g b ((x + 2) % 5 + y))
    if i = 0 then v ^^^ rc else v

/-- SHA3-256: rate 136 bytes, domain bits 0x06. -/
def sha3_256 (m : Bytes) : Bytes :=
  let z := 136 - (m.length % 136)
  let padded := m ++ (if z = 1 then [0x86] else [0x06] ++ fill (z - 2) 0 ++ [0x80])
  let st := (blocks 136 padded).foldl (fun a blk =>
    let w := (blocks 8 blk).map fun b => BitVec.ofNat 64 (leNat b)
    keccakRC.foldl keccakRound ((List.range 25).map fun i => a.getD i 0 ^^^ w.getD i 0))
    (List.replicate 25 (0 : BitVec 64))
  (st.flatMap fun x => leBytes 8 x.toNat).take 32

/-- HMAC over a hash of the given block length. -/
def hmac (h : Bytes → Bytes) (block : Nat) (key m : Bytes) : Bytes :=
  let k := padTo block (if key.length ≤ block then key else h key)
  h (k.map (· ^^^ 0x5C) ++ h (k.map (· ^^^ 0x36) ++ m))

/-- HMAC-SHA-256. -/
def hmacSha256 (key m : Bytes) : Bytes := hmac sha256 64 key m

/-- HKDF-SHA-256: extract with `salt`, then expand with `info` to `n` bytes. -/
def hkdfSha256 (salt ikm info : Bytes) (n : Nat) : Bytes :=
  let prk := hmacSha256 (if salt.isEmpty then fill 32 0 else salt) ikm
  let step := fun (acc : Bytes × Bytes) (i : Nat) =>
    let t := hmacSha256 prk (acc.1 ++ info ++ [BitVec.ofNat 8 (i + 1)])
    (t, acc.2 ++ t)
  (((List.range ((n + 31) / 32)).foldl step ([], [])).2).take n

/-- HKDF-SHA-384 without salt (R457). -/
def hkdfSha384 (ikm info : Bytes) (n : Nat) : Bytes :=
  let mac := fun (key m : Bytes) => hmac sha384 128 key m
  let prk := mac (fill 48 0) ikm
  let step := fun (acc : Bytes × Bytes) (i : Nat) =>
    let t := mac prk (acc.1 ++ info ++ [BitVec.ofNat 8 (i + 1)])
    (t, acc.2 ++ t)
  (((List.range ((n + 47) / 48)).foldl step ([], [])).2).take n

/-- One SipHash round on the four lanes. -/
def sipRound (v : BitVec 64 × BitVec 64 × BitVec 64 × BitVec 64) : BitVec 64 × BitVec 64 × BitVec 64 × BitVec 64 :=
  let a := v.1 + v.2.1
  let b := (v.2.1.rotateLeft 13) ^^^ a
  let a := a.rotateLeft 32
  let c := v.2.2.1 + v.2.2.2
  let d := (v.2.2.2.rotateLeft 16) ^^^ c
  let a := a + d
  let d := (d.rotateLeft 21) ^^^ a
  let c := c + b
  let b := (b.rotateLeft 17) ^^^ c
  let c := c.rotateLeft 32
  (a, b, c, d)

/-- SipHash-2-4 under a 16-byte key, as a 64-bit number (R290). -/
def sipHash24 (key m : Bytes) : Nat :=
  let k0 := BitVec.ofNat 64 (le key 0 8)
  let k1 := BitVec.ofNat 64 (le key 8 8)
  let full := m.length / 8
  let body := (List.range full).map fun i => BitVec.ofNat 64 (le m (8 * i) 8)
  let last := BitVec.ofNat 64 (leNat (m.drop (8 * full)) + m.length % 256 * 2 ^ 56)
  let absorb := fun (v : BitVec 64 × BitVec 64 × BitVec 64 × BitVec 64) (w : BitVec 64) =>
    let v := sipRound (sipRound (v.1, v.2.1, v.2.2.1, v.2.2.2 ^^^ w))
    (v.1 ^^^ w, v.2.1, v.2.2.1, v.2.2.2)
  let v0 := (k0 ^^^ 0x736f6d6570736575, k1 ^^^ 0x646f72616e646f6d, k0 ^^^ 0x6c7967656e657261, k1 ^^^ 0x7465646279746573)
  let v := (body ++ [last]).foldl absorb v0
  let v := sipRound (sipRound (sipRound (sipRound (v.1, v.2.1, v.2.2.1 ^^^ 0xff, v.2.2.2))))
  (v.1 ^^^ v.2.1 ^^^ v.2.2.1 ^^^ v.2.2.2).toNat

/-- The reflected CRC-32 of Ethernet. -/
def crc32 (m : Bytes) : Word :=
  let step := fun (c : Word) (b : Byte) =>
    (List.range 8).foldl (fun (c : Word) _ => if c.getLsbD 0 then c >>> 1 ^^^ 0xEDB88320 else c >>> 1)
      (c ^^^ b.zeroExtend 32)
  ~~~(m.foldl step 0xFFFFFFFF)

end Sys2Proof.Machine
end

