-- ==== Sys2Proof/Machine/Cipher.lean ====
section
/-! DEFINITION. The ciphers the spec names: AES-128 and AES-256, XTS, GCM, RFC 5649 key wrap, and P-384 with ECDH and
ECDSA (R455-R471, R461, R544). The algorithms are those of the public standards (PRESUMED: named, not restated). -/

namespace Sys2Proof.Machine

/-- The AES substitution box. -/
def aesSbox : Bytes :=
  [0x63, 0x7c, 0x77, 0x7b, 0xf2, 0x6b, 0x6f, 0xc5, 0x30, 0x1, 0x67, 0x2b, 0xfe, 0xd7, 0xab, 0x76] ++
  [0xca, 0x82, 0xc9, 0x7d, 0xfa, 0x59, 0x47, 0xf0, 0xad, 0xd4, 0xa2, 0xaf, 0x9c, 0xa4, 0x72, 0xc0] ++
  [0xb7, 0xfd, 0x93, 0x26, 0x36, 0x3f, 0xf7, 0xcc, 0x34, 0xa5, 0xe5, 0xf1, 0x71, 0xd8, 0x31, 0x15] ++
  [0x4, 0xc7, 0x23, 0xc3, 0x18, 0x96, 0x5, 0x9a, 0x7, 0x12, 0x80, 0xe2, 0xeb, 0x27, 0xb2, 0x75] ++
  [0x9, 0x83, 0x2c, 0x1a, 0x1b, 0x6e, 0x5a, 0xa0, 0x52, 0x3b, 0xd6, 0xb3, 0x29, 0xe3, 0x2f, 0x84] ++
  [0x53, 0xd1, 0x0, 0xed, 0x20, 0xfc, 0xb1, 0x5b, 0x6a, 0xcb, 0xbe, 0x39, 0x4a, 0x4c, 0x58, 0xcf] ++
  [0xd0, 0xef, 0xaa, 0xfb, 0x43, 0x4d, 0x33, 0x85, 0x45, 0xf9, 0x2, 0x7f, 0x50, 0x3c, 0x9f, 0xa8] ++
  [0x51, 0xa3, 0x40, 0x8f, 0x92, 0x9d, 0x38, 0xf5, 0xbc, 0xb6, 0xda, 0x21, 0x10, 0xff, 0xf3, 0xd2] ++
  [0xcd, 0xc, 0x13, 0xec, 0x5f, 0x97, 0x44, 0x17, 0xc4, 0xa7, 0x7e, 0x3d, 0x64, 0x5d, 0x19, 0x73] ++
  [0x60, 0x81, 0x4f, 0xdc, 0x22, 0x2a, 0x90, 0x88, 0x46, 0xee, 0xb8, 0x14, 0xde, 0x5e, 0xb, 0xdb] ++
  [0xe0, 0x32, 0x3a, 0xa, 0x49, 0x6, 0x24, 0x5c, 0xc2, 0xd3, 0xac, 0x62, 0x91, 0x95, 0xe4, 0x79] ++
  [0xe7, 0xc8, 0x37, 0x6d, 0x8d, 0xd5, 0x4e, 0xa9, 0x6c, 0x56, 0xf4, 0xea, 0x65, 0x7a, 0xae, 0x8] ++
  [0xba, 0x78, 0x25, 0x2e, 0x1c, 0xa6, 0xb4, 0xc6, 0xe8, 0xdd, 0x74, 0x1f, 0x4b, 0xbd, 0x8b, 0x8a] ++
  [0x70, 0x3e, 0xb5, 0x66, 0x48, 0x3, 0xf6, 0xe, 0x61, 0x35, 0x57, 0xb9, 0x86, 0xc1, 0x1d, 0x9e] ++
  [0xe1, 0xf8, 0x98, 0x11, 0x69, 0xd9, 0x8e, 0x94, 0x9b, 0x1e, 0x87, 0xe9, 0xce, 0x55, 0x28, 0xdf] ++
  [0x8c, 0xa1, 0x89, 0xd, 0xbf, 0xe6, 0x42, 0x68, 0x41, 0x99, 0x2d, 0xf, 0xb0, 0x54, 0xbb, 0x16]

/-- Substitution of one byte. -/
def aesSub (b : Byte) : Byte := aesSbox.getD b.toNat 0

/-- The inverse substitution of one byte. -/
def aesInvSub (b : Byte) : Byte := BitVec.ofNat 8 (aesSbox.findIdx (· == b))

/-- Multiplication by x in the field of AES. -/
def xtime (b : Byte) : Byte := if b.getLsbD 7 then b <<< 1 ^^^ 0x1B else b <<< 1

/-- Multiplication by a small constant in the field of AES. -/
def gfMul (c : Nat) (b : Byte) : Byte :=
  ((List.range 4).foldl (fun (acc : Byte × Byte) i => (if bit c i then acc.1 ^^^ acc.2 else acc.1, xtime acc.2)) (0, b)).1

/-- Byte-wise exclusive or. -/
def xorBytes (a b : Bytes) : Bytes := List.zipWith (· ^^^ ·) a b

/-- Extends the key schedule (words newest first) from word number `i`, `n` more words. -/
def aesExpand (nk : Nat) : Nat → Nat → List Bytes → List Bytes
  | 0, _, ws => ws
  | n + 1, i, ws =>
    let prev := ws.getD 0 []
    let t :=
      if i % nk = 0 then
        xorBytes ((prev.drop 1 ++ prev.take 1).map aesSub)
          [(List.range (i / nk - 1)).foldl (fun (b : Byte) _ => xtime b) 1, 0, 0, 0]
      else if nk > 6 ∧ i % nk = 4 then prev.map aesSub
      else prev
    aesExpand nk n (i + 1) (xorBytes (ws.getD (nk - 1) []) t :: ws)

/-- The round keys of a 16- or 32-byte key, 16 bytes each. -/
def aesKeys (key : Bytes) : List Bytes :=
  let nk := key.length / 4
  let ws := (aesExpand nk (4 * (nk + 7) - nk) nk (blocks 4 key).reverse).reverse
  blocks 16 ws.flatten

/-- ShiftRows: byte `i` comes from column `(i / 4 + i % 4) mod 4`. -/
def aesShift (s : Bytes) : Bytes := (List.range 16).map fun i => s.getD (((i / 4 + i % 4) % 4) * 4 + i % 4) 0
/-- The inverse of ShiftRows. -/
def aesUnshift (s : Bytes) : Bytes := (List.range 16).map fun i => s.getD (((i / 4 + 4 - i % 4) % 4) * 4 + i % 4) 0

/-- MixColumns with the given first row. -/
def aesMix (row : List Nat) (s : Bytes) : Bytes :=
  (List.range 16).map fun i =>
    (List.range 4).foldl (fun (a : Byte) j => a ^^^ gfMul (row.getD ((j + 4 - i % 4) % 4) 0) (s.getD (i / 4 * 4 + j) 0)) 0

/-- AES encryption of one 16-byte block. -/
def aesEnc (key blk : Bytes) : Bytes :=
  match aesKeys key with
  | [] => blk
  | k0 :: ks =>
    let mid := (ks.dropLast).foldl (fun s k => xorBytes (aesMix [2, 3, 1, 1] (aesShift (s.map aesSub))) k) (xorBytes blk k0)
    xorBytes (aesShift (mid.map aesSub)) (ks.getLastD [])

/-- AES decryption of one 16-byte block. -/
def aesDec (key blk : Bytes) : Bytes :=
  match (aesKeys key).reverse with
  | [] => blk
  | kn :: ks =>
    let mid := (ks.dropLast).foldl (fun s k => aesMix [14, 11, 13, 9] (xorBytes ((aesUnshift s).map aesInvSub) k)) (xorBytes blk kn)
    xorBytes ((aesUnshift mid).map aesInvSub) (ks.getLastD [])

/-- Multiplication in the field of GCM, on the 128-bit numbers of big-endian blocks. -/
def ghashMul (x y : Nat) : Nat :=
  ((List.range 128).foldl (fun (acc : Nat × Nat) i =>
    (if bit x (127 - i) then acc.1 ^^^ acc.2 else acc.1,
     if bit acc.2 0 then acc.2 / 2 ^^^ 0xE1 * 2 ^ 120 else acc.2 / 2)) (0, y)).1

/-- GHASH of additional data and ciphertext. -/
def ghash (h : Nat) (aad ct : Bytes) : Nat :=
  let pad := fun (b : Bytes) => b ++ fill (roundUp b.length 16 - b.length) 0
  (blocks 16 (pad aad ++ pad ct ++ beBytes 8 (8 * aad.length) ++ beBytes 8 (8 * ct.length))).foldl
    (fun y b => ghashMul (y ^^^ beNat b) h) 0

/-- Key stream of GCM: the counter blocks `from ..` for the 12-byte nonce, applied to `m`. -/
def gcmCtr (key nonce m : Bytes) : Bytes :=
  (List.zipWith (fun i b => xorBytes (aesEnc key (nonce ++ beBytes 4 (i + 2))) b) (List.range (blocks 16 m).length)
    (blocks 16 m)).flatten

/-- The 16-byte GCM tag of a ciphertext. -/
def gcmTag (key nonce aad ct : Bytes) : Bytes :=
  xorBytes (beBytes 16 (ghash (beNat (aesEnc key (fill 16 0))) aad ct)) (aesEnc key (nonce ++ [0, 0, 0, 1]))

/-- AES-GCM sealing: ciphertext, then tag. -/
def gcmSeal (key nonce aad m : Bytes) : Bytes :=
  let ct := gcmCtr key nonce m
  ct ++ gcmTag key nonce aad ct

/-- AES-GCM opening: the plaintext when the tag, the last 16 bytes, matches. -/
def gcmOpen (key nonce aad m : Bytes) : Option Bytes :=
  let ct := m.take (m.length - 16)
  if m.length < 16 then none
  else if gcmTag key nonce aad ct = m.drop ct.length then some (gcmCtr key nonce ct) else none

/-- Multiplication of an XTS tweak by x (little-endian, IEEE 1619). -/
def xtsDouble (t : Bytes) : Bytes :=
  let v := 2 * leNat t
  leBytes 16 (if v < 2 ^ 128 then v else (v - 2 ^ 128) ^^^ 0x87)

/-- XTS encryption of one data unit of 1 to 4,096 bytes under the two halves of `key`, with ciphertext stealing, and a
short unit padded with zeros to 16 bytes (R467, R468, R470). -/
def xtsEnc (key tweak unit : Bytes) : Bytes :=
  let half := key.length / 2
  let k1 := key.take half
  let one := fun (t b : Bytes) => xorBytes (aesEnc k1 (xorBytes b t)) t
  let p := if unit.length < 16 then padTo 16 unit else unit
  let full := p.length / 16
  let tail := p.drop (16 * full)
  let run := (blocks 16 (p.take (16 * full))).foldl
    (fun (acc : List Bytes × Bytes) b => (acc.1 ++ [one acc.2 b], xtsDouble acc.2)) ([], aesEnc (key.drop half) tweak)
  if tail.isEmpty then run.1.flatten
  else
    let last := run.1.getLastD []
    run.1.dropLast.flatten ++ one run.2 (tail ++ last.drop tail.length) ++ last.take tail.length

/-- The six passes of RFC 3394 unwrapping, on `a` and the 8-byte blocks. -/
def unwrapRounds (kek : Bytes) (n : Nat) : Nat → Bytes × List Bytes → Bytes × List Bytes
  | 0, s => s
  | k + 1, (a, rs) =>
    -- step number t = k + 1 in the order of wrapping, taken backwards
    let i := k % n
    let b := aesDec kek (xorBytes a (beBytes 8 (k + 1)) ++ rs.getD i [])
    unwrapRounds kek n k (b.take 8, rs.set i (b.drop 8))

/-- RFC 5649 key unwrap: the key, when the integrity value and the padding are right. -/
def keyUnwrap (kek w : Bytes) : Option Bytes :=
  let n := w.length / 8 - 1
  if w.length % 8 ≠ 0 ∨ w.length < 16 then none
  else
    let r := if n = 1 then let b := aesDec kek w; (b.take 8, [b.drop 8])
             else unwrapRounds kek n (6 * n) (w.take 8, blocks 8 (w.drop 8))
    let m := r.2.flatten
    let len := beNat (r.1.drop 4)
    if r.1.take 4 ≠ [0xA6, 0x59, 0x59, 0xA6] ∨ len > 8 * n ∨ len + 8 ≤ 8 * n ∨ (m.drop len).any (· != 0) then none
    else some (m.take len)

/-- RFC 5649 key wrap of a key of 9 bytes or more: the six passes of RFC 3394 over the integrity value, with the key's length, and the
zero-padded key. -/
def keyWrap (kek key : Bytes) : Bytes :=
  let rs := blocks 8 (padTo (roundUp key.length 8) key)
  let n := rs.length
  let r := (List.range (6 * n)).foldl (fun (s : Bytes × List Bytes) k =>
    let b := aesEnc kek (s.1 ++ s.2.getD (k % n) [])
    (xorBytes (b.take 8) (beBytes 8 (k + 1)), s.2.set (k % n) (b.drop 8))) ([0xA6, 0x59, 0x59, 0xA6] ++ beBytes 4 key.length, rs)
  r.1 ++ r.2.flatten

/-! P-384. -/

def p384P : Nat := 2 ^ 384 - 2 ^ 128 - 2 ^ 96 + 2 ^ 32 - 1
def p384N : Nat := 0xffffffffffffffffffffffffffffffffffffffffffffffffc7634d81f4372ddf581a0db248b0a77aecec196accc52973
def p384B : Nat := 0xb3312fa7e23ee7e4988e056be3f82d19181d9c6efe8141120314088f5013875ac656398d8a2ed19d2a85c8edd3ec2aef
def p384Gx : Nat := 0xaa87ca22be8b05378eb1c71ef320ad746e1d3b628ba79b9859f741e082542a385502f25dbf55296c3a545e3872760ab7
def p384Gy : Nat := 0x3617de4a96262c6f5d9e98bf9292dc29f8f41dbd289a147ce9da3113b5f0b8c00a60b1ce1d7e819d7a431d7c90ea0e5f

/-- Modular power, `n` bits of the exponent from bit `n - 1` down. -/
def powMod (m b : Nat) (e : Nat) : Nat → Nat → Nat
  | 0, acc => acc
  | n + 1, acc =>
    let sq := acc * acc % m
    powMod m b e n (if bit e n then sq * b % m else sq)

/-- Inverse modulo a prime of 384 bits. -/
def invMod (m a : Nat) : Nat := powMod m (a % m) (m - 2) 384 1

/-- A point of the curve; `none` is the point at infinity. -/
abbrev Point := Option (Nat × Nat)

/-- The point lies on the curve, with both coordinates reduced. -/
def onCurve (x y : Nat) : Bool :=
  decide (x < p384P) && decide (y < p384P) && (y * y + 3 * x) % p384P == (x * x * x + p384B) % p384P

/-- Addition of points. -/
def ptAdd (a b : Point) : Point :=
  match a, b with
  | none, q => q
  | q, none => q
  | some (x1, y1), some (x2, y2) =>
    if x1 = x2 ∧ (y1 + y2) % p384P = 0 then none
    else
      let l :=
        if x1 = x2 then (3 * x1 * x1 + 3 * p384P - 3) * invMod p384P (2 * y1) % p384P
        else (y2 + p384P - y1) * invMod p384P (x2 + p384P - x1) % p384P
      let x := (l * l + 2 * p384P - x1 - x2) % p384P
      some (x, (l * (x1 + p384P - x) + p384P - y1) % p384P)

/-- Scalar multiplication, `n` bits of the scalar from bit `n - 1` down. -/
def ptMul (k : Nat) (q : Point) : Nat → Point → Point
  | 0, acc => acc
  | n + 1, acc =>
    let d := ptAdd acc acc
    ptMul k q n (if bit k n then ptAdd d q else d)

/-- `k` times `q`. -/
def ptScale (k : Nat) (q : Point) : Point := ptMul k q 384 none

/-- The generator. -/
def p384G : Point := some (p384Gx, p384Gy)

/-- The x-coordinate of the ECDH point of a scalar and a point on the curve. The group has prime order: no scalar below it takes such a point
to the point at infinity. (log 10 PRESUMED) -/
def ecdhX (k x y : Nat) : Nat := ((ptScale k (some (x, y))).map (·.1)).getD 0

/-- ECDSA verification on a SHA-384 digest: public key, `r` and `s`. -/
def ecdsaVerify (pub : Nat × Nat) (digest : Bytes) (r s : Nat) : Bool :=
  if r = 0 ∨ s = 0 ∨ r ≥ p384N ∨ s ≥ p384N then false
  else
    let w := invMod p384N s
    match ptAdd (ptScale (beNat digest * w % p384N) p384G) (ptScale (r * w % p384N) (some pub)) with
    | none => false
    | some (x, _) => x % p384N == r

end Sys2Proof.Machine
end

