-- ==== Sys2Proof/Machine/Store.lean ====
section
/-! DEFINITION. The stored state: lookups, snapshots, accounting, versions, location tokens, the changes a commit record
makes, and the evaluation of writes at their turn (02, 04, 05). -/

namespace Sys2Proof.Machine

/-- 2^64 - 1: an unlimited quota, and the version never assigned (R46, R58). -/
def u64max : Nat := 2 ^ 64 - 1

/-! Status values (R136). -/
def stSuccess : Nat := 0x0000
def stReplayed : Nat := 0x0001
def stNotFound : Nat := 0x1001
def stExists : Nat := 0x1002
def stVersion : Nat := 0x1003
def stRange : Nat := 0x1004
def stBadOpcode : Nat := 0x2001
def stBadField : Nat := 0x2002
def stKeyTooLong : Nat := 0x2003
def stConflict : Nat := 0x3001
def stSnapRevoked : Nat := 0x3002
def stTokenStale : Nat := 0x3003
def stQuota : Nat := 0x4001
def stNoSpace : Nat := 0x4002
def stTooManySnaps : Nat := 0x4003
def stUnrecoverable : Nat := 0x5001
def stWriteFault : Nat := 0x5002
def stRemote : Nat := 0x6001
def stShort : Nat := 0x6002
def stLong : Nat := 0x6003
def stNotExecuted : Nat := 0x7001
def stDependency : Nat := 0x7002
def stAborted : Nat := 0x7003
def stTooLate : Nat := 0x7004
def stQueueFrozen : Nat := 0x7005
def stDenied : Nat := 0x8001
def stKeyMissing : Nat := 0x8002
def stAuthFailed : Nat := 0x8003
def stInternal : Nat := 0x9001

/-- The class of a status. -/
def statusClass (s : Nat) : Nat := s / 0x1000

/-- Classes 0 and 1: the outcomes that never freeze a queue (R255). -/
def goodStatus (s : Nat) : Bool := decide (statusClass s ≤ 1)

/-- A failure at a stage, with result bytes. -/
def Res.failed (status stage : Nat) (b : Bytes := []) (len : Nat := 0) : Res :=
  { status := status, stage := stage, b := b, len := len }

/-- `BAD_FIELD` with the offset of the field at fault (R136). -/
def Res.badField (stage off : Nat) : Res := .failed stBadField stage (leBytes 2 off)

/-- `STATE_CONFLICT` with reason and detail (R137). -/
def Res.conflict (stage reason detail : Nat) (third : Nat := 0) : Res :=
  .failed stConflict stage [BitVec.ofNat 8 reason, BitVec.ofNat 8 detail, BitVec.ofNat 8 third]

/-- `QUOTA` with its reason and key space (R138). -/
def Res.quota (stage reason ks : Nat) : Res := .failed stQuota stage (leBytes 2 reason ++ leBytes 2 ks)

/-! Records and snapshots. -/

/-- The record is the current version of its key. -/
def Rec.cur (r : Rec) : Bool := r.died.isNone

/-- The record is the one that a snapshot with horizon `h` sees (R70). -/
def Rec.visible (r : Rec) (h : Nat) : Bool :=
  decide (r.born < h) && (match r.died with
    | none => true
    | some x => decide (h < x))

/-- The current version of a key. -/
def Store.get? (ks : Nat) (key : Bytes) (s : Store) : Option Rec := s.recs.find? fun r => r.ks == ks && r.key == key && r.cur

/-- The version of a key that horizon `h` sees (R70). -/
def Store.getAt? (ks : Nat) (key : Bytes) (h : Nat) (s : Store) : Option Rec :=
  s.recs.find? fun r => r.ks == ks && r.key == key && r.visible h

/-- An open snapshot needs the record (R71). -/
def Store.needed (s : Store) (r : Rec) : Bool := s.snaps.any fun n => n.kss.contains r.ks && r.visible n.horizon

/-- Drops the replaced versions that no open snapshot needs (R71, R72). -/
def Store.prune (s : Store) : Store := { s with recs := s.recs.filter fun r => r.cur || s.needed r }

/-- The open snapshot of a handle: slot in bits 7:0, generation above (R69). -/
def Store.snap? (handle : Nat) (s : Store) : Option Snap := s.snaps.find? fun n => n.slot + 256 * n.gen == handle

def Snap.handle (n : Snap) : Nat := n.slot + 256 * n.gen

/-! Accounting (R82-R87, R295, R350). -/

/-- Key plus value bytes of a version (R82). -/
def Rec.bytes (r : Rec) : Nat := r.key.length + r.value.length

/-- The key space's data counts double in standard-class bytes when it is ARCHIVE (R83). -/
def Store.weight (ks : Nat) (s : Store) : Nat :=
  match s.ks? ks with
  | some k => if k.retention == .archive then 2 else 1
  | none => 1

/-- Bytes used and keys used of a key space (R82). -/
def Store.bytesUsed (ks : Nat) (s : Store) : Nat := sumBy Rec.bytes (s.recs.filter fun r => r.ks == ks && r.cur)
def Store.keysUsed (ks : Nat) (s : Store) : Nat := (s.recs.filter fun r => r.ks == ks && r.cur).length

/-- Snapshot-held bytes of a key space (R71). -/
def Store.heldBytes (ks : Nat) (s : Store) : Nat := sumBy Rec.bytes (s.recs.filter fun r => r.ks == ks && !r.cur)

/-- Standard-class bytes of every stored version (R350). -/
def Store.stored (s : Store) : Nat := sumBy (fun r => s.weight r.ks * r.bytes) s.recs

/-- Standard-class bytes held only for snapshots. -/
def Store.heldAll (s : Store) : Nat := sumBy (fun r => if r.cur then 0 else s.weight r.ks * r.bytes) s.recs

/-- Total index charge (R295). -/
def Store.indexCharge (s : Store) : Nat := sumBy (fun r => roundUp (24 + r.key.length) 8) s.recs

/-- The free-space reserve (R351). -/
def reserve : Nat := 64 * 2 ^ 30

/-! Fingerprints and location tokens (R64, R290). -/

def Store.fingerprint (ks : Nat) (key : Bytes) (s : Store) : Nat := sipHash24 s.fpKey (leBytes 2 ks ++ key)

/-- The token key of an epoch: the current or the previous one (R67). -/
def Store.tokenKey? (epoch : Nat) (s : Store) : Option Bytes :=
  if epoch = s.epoch then some s.tokCur
  else if (epoch + 1) % 16 = s.epoch ∧ ¬ s.tokPrev.isEmpty then some s.tokPrev
  else none

/-- Bytes 0x00-0x08 of a token (R64). -/
def tokenHead (seg off ks epoch : Nat) : Bytes :=
  leBytes 9 (fbits 0 20 seg + fbits 20 36 off + fbits 56 12 ks + fbits 68 4 epoch)

/-- A whole token: head, then the first 7 bytes of the HMAC over head and fingerprint (R64). -/
def makeToken (key : Bytes) (head : Bytes) (fp : Nat) : Bytes := head ++ (hmacSha256 key (head ++ leBytes 8 fp)).take 7

/-- The location token of a record now (R65). -/
def Store.token (r : Rec) (s : Store) : Bytes :=
  makeToken s.tokCur (tokenHead r.seg r.off r.ks s.epoch) (s.fingerprint r.ks r.key)

/-- The live record a token names, when every check of R66 passes. -/
def Store.byToken? (tok : Bytes) (s : Store) : Option Rec :=
  let n := le tok 0 9
  let ks := field n 56 12
  match s.tokenKey? (field n 68 4) with
  | none => none
  | some k => s.recs.find? fun r => r.cur && r.ks == ks && r.seg == field n 0 20 && r.off == field n 20 36
      && makeToken k (tok.take 9) (s.fingerprint ks r.key) == padTo 16 tok

/-- CQE result of R143: version, write time, length. -/
def versionRes (status : Nat) (version wtime len : Nat) : Res :=
  { status := status, b := leBytes 8 version ++ leBytes 8 wtime, len := len }

/-- R143 for a record, or its token in an ANCHORED key space (R65). -/
def Store.report (status : Nat) (r : Rec) (anchored : Bool) (s : Store) : Res :=
  if anchored then { status := status, b := s.token r, len := r.value.length, flags := 8 }
  else versionRes status r.version r.wtime r.value.length

/-! Values on flash (R467, R468, R470, R471). -/

/-- The tweak of a data unit: record ID, unit, key space and domain (R468). -/
def unitTweak (recId unit ks dom : Nat) : Bytes := leBytes 8 recId ++ leBytes 4 unit ++ leBytes 2 (ks % 4096 + 4096 * dom) ++ [0, 0]

/-- The data units of a record's value as flash holds them: each 4 KiB encrypted under the media key, with its unit tag when the record
carries tags. -/
def Rec.encipher (mediaKey : Bytes) (r : Rec) : List (Bytes × Option Bytes) :=
  (numbered (blocks 4096 r.value)).map fun u =>
    let tweak := unitTweak r.recId u.1 r.ks 0
    let ct := xtsEnc mediaKey tweak u.2
    (ct, if r.tagged then some (gcmTag (hkdfSha256 [] mediaKey (ascii "CRK72 unit tag") 32) (tweak.take 12) ct []) else none)

/-- What is not value bytes as flash holds it: data units encrypted under the metadata key, in the domain of their kind (R468, R469). -/
def Store.sealMeta (dom id ks : Nat) (b : Bytes) (s : Store) : List Bytes :=
  (numbered (blocks 4096 b)).map fun u => xtsEnc s.metaKey (unitTweak id u.1 ks dom) u.2

/-- Header and key of a record as flash holds them, readable without any host slot (R469). -/
def Store.sealedHead (r : Rec) (s : Store) : List Bytes :=
  s.sealMeta 8 r.recId r.ks (Config.recHead r.recId r.version r.value.length ++ r.key)

/-- A record with its bytes on flash, in key space `k` (R467-R471). -/
def Store.onFlash (k : KeySpace) (r : Rec) (s : Store) : Rec :=
  { r with units := r.encipher (k.mediaKey.getD []), head := s.sealedHead r }

/-- The media key of a key space as the slot's cipher key unwraps it (R463). -/
def KeySpace.keyedBy (key : Option Bytes) (k : KeySpace) : KeySpace := { k with mediaKey := key.bind fun c => keyUnwrap c k.wrapped }

/-- Volatile slots lose their cipher keys, and with them go the media keys of the key spaces that name them (R458). -/
def Store.dropVolatile (s : Store) : Store :=
  { s with
    slots := s.slots.filter (·.persistent)
    kss := s.kss.map fun k => if k.slot = 0xFFFF ∨ s.slots.any (fun x => x.slot == k.slot && x.persistent) then k else { k with mediaKey := none } }

/-! What a commit record does (R406). -/

def Store.onKs (id : Nat) (f : KeySpace → KeySpace) (s : Store) : Store :=
  { s with kss := updFirst (fun k => k.id == id) f s.kss }

/-- Ends the current version of a key at turn `t`. -/
def Store.retire (ks : Nat) (key : Bytes) (t : Nat) (s : Store) : Store :=
  { s with recs := s.recs.map fun r => if r.ks == ks && r.key == key && r.cur then { r with died := some t } else r }

def Store.apply (t : Nat) (e : Effect) (s : Store) : Store :=
  match e with
  | .putRec r => let s' := (s.retire r.ks r.key t).prune; { s' with recs := s'.recs ++ [r] }
  | .delRec ks key =>
    match s.get? ks key with
    | none => s
    | some r => ((s.retire ks key t).prune).onKs ks fun k => { k with hwm := max k.hwm r.version }
  | .ksCreate k => { s with kss := insertBy (·.id) k s.kss, created := k.serial }
  | .ksDelete id => { s with kss := s.kss.filter (·.id != id), recs := s.recs.filter (·.ks != id) }
  | .ksModify k => s.onKs k.id fun old => { k with hwm := old.hwm }
  | .snapOpen n => { s with snaps := s.snaps ++ [n], snapGen := n.gen }
  | .snapClose slot => Store.prune { s with snaps := s.snaps.filter (·.slot != slot) }
  | .slotLoad c deleting =>
    { s with slots := insertBy (·.slot) c (s.slots.filter (·.slot != c.slot))
             kss := s.kss.map fun k => if k.slot = c.slot ∧ ¬ deleting.contains k.id then k.keyedBy (some c.key) else k }
  | .slotDrop n =>
    { s with slots := s.slots.filter (·.slot != n), kss := s.kss.map fun k => if k.slot = n then k.keyedBy none else k }
  | .tenantSet t => { s with tenants := insertBy (·.id) t (s.tenants.filter (·.id != t.id)) }
  | .tenantDrop id =>
    { s with tenants := s.tenants.filter (·.id != id)
             kss := s.kss.map fun k => { k with acl := k.acl.filter (·.tenant != id) } }
  | .tokenRotate key => { s with tokPrev := s.tokCur, tokCur := key, epoch := (s.epoch + 1) % 16 }
  | .move l =>
    { s with recs := s.recs.map fun r => match l.find? fun x => x.1 == r.recId with
      | some (_, seg, off) => { r with seg := seg, off := off }
      | none => r }

def Store.applyAll (t : Nat) (es : List Effect) (s : Store) : Store := es.foldl (fun s e => s.apply t e) s

/-! Writes at their turn (R142, R152-R161, R182). -/

inductive WriteKind where
  | put | cas | delete | append | check
  deriving DecidableEq, Repr

/-- A write operation, alone or in a batch, with everything its turn needs: flags byte, operand, value, record ID and
placement of the record it would store. -/
structure WriteOp where
  kind    : WriteKind
  flags   : Nat
  ks      : Nat
  key     : Bytes
  operand : Nat
  value   : Bytes
  recId   : Nat
  seg     : Nat
  off     : Nat
  tagged  : Bool
  placed  : Bool := false
  deriving DecidableEq, Repr

/-- What evaluating one operation gives: the changed store, its effects, its result, the version it assigned, whether it
holds to its condition. -/
structure Eval where
  store   : Store
  effs    : List Effect := []
  res     : Res
  version : Nat := 0
  wrote   : Nat := 0
  deriving DecidableEq, Repr

/-- Stores a new version of a key (R57, R58, R62). -/
def storeRec (s : Store) (o : WriteOp) (k : KeySpace) (value : Bytes) (digest : Bool) (t wtime : Nat) : Except Res Eval :=
  let v := match s.get? o.ks o.key with
    | some r => r.version + 1
    | none => k.hwm + 1
  if v ≥ u64max then .error (.conflict 10 5 2)
  else
    let r : Rec :=
      { ks := o.ks, key := o.key, version := v, wtime := wtime, value := value
        digest := if digest then some (sha256 value) else none
        seg := o.seg, off := o.off, recId := o.recId, tagged := o.tagged, born := t, died := none }
    let r := s.onFlash k r
    let s' := s.apply t (.putRec r)
    .ok { store := s', effs := [.putRec r], res := s'.report stSuccess r (k.vclass == .anchored), version := v
          wrote := o.value.length }

/-- Evaluates one operation against the state that earlier operations left (R152-R161, R182). -/
def evalOp (s : Store) (o : WriteOp) (t wtime : Nat) : Except Res Eval :=
  match s.ks? o.ks with
  | none => .error (.failed stDenied 10)
  | some k =>
    let cur := s.get? o.ks o.key
    let anchored := k.vclass == .anchored
    let mismatch : Res := match cur with
      | some r => .failed stVersion 10 (leBytes 8 r.version ++ leBytes 8 r.wtime)
      | none => .failed stVersion 10 []
    let curVer := match cur with
      | some r => r.version
      | none => 0
    let notFound : Res := .failed stNotFound 10
    let digest := bit o.flags 7
    match o.kind with
    | .check =>
      if curVer = o.operand then
        .ok { store := s, res := match cur with
              | some r => versionRes stSuccess r.version r.wtime r.value.length
              | none => versionRes stSuccess 0 0 0 }
      else .error mismatch
    | .delete =>
      match cur with
      | none => .error notFound
      | some r =>
        if bit o.flags 6 ∧ r.version ≠ o.operand then .error mismatch
        else .ok { store := s.apply t (.delRec o.ks o.key), effs := [.delRec o.ks o.key]
                   res := versionRes stSuccess r.version wtime r.value.length, version := r.version }
    | .cas => if curVer = o.operand then storeRec s o k o.value digest t wtime else .error mismatch
    | .put =>
      match cur with
      | some r =>
        if anchored then .error { (s.report stExists r true) with stage := 10 }
        else if bit o.flags 4 then .error { (versionRes stExists r.version r.wtime r.value.length) with stage := 10 }
        else if bit o.flags 6 ∧ r.version ≠ o.operand then .error mismatch
        else storeRec s o k o.value digest t wtime
      | none => if bit o.flags 5 || bit o.flags 6 then .error notFound else storeRec s o k o.value digest t wtime
    | .append =>
      match cur with
      | some r =>
        if bit o.flags 6 ∧ r.version ≠ o.operand then .error mismatch
        else if r.value.length + o.value.length > 0xFFFFFFFF then .error (.badField 10 0xFFFF)
        else storeRec s o k (r.value ++ o.value) digest t wtime
      | none => if bit o.flags 4 && !bit o.flags 6 then storeRec s o k o.value digest t wtime else .error notFound

/-- Evaluates the operations of one commit in list order; an error carries the index of the operation (R182, R183). -/
def evalOps (t wtime : Nat) : List WriteOp → Nat → Store → Except (Nat × Res) (Store × List Effect × List (Res × Nat) × Nat)
  | [], _, s => .ok (s, [], [], 0)
  | o :: os, i, s =>
    match evalOp s o t wtime with
    | .error r => .error (i, r)
    | .ok e =>
      match evalOps t wtime os (i + 1) e.store with
      | .error x => .error x
      | .ok (s', effs, rs, w) => .ok (s', e.effs ++ effs, (e.res, e.version) :: rs, e.wrote + w)

/-- The first key space, in the order of the operations, whose quota the change from `s` to `s'` exceeds (R84, R85). `quota` gives byte
and key-count quota. -/
def quotaFault (quota : KeySpace → Nat × Nat) (s s' : Store) (kss : List Nat) : Option Res :=
  kss.findSome? fun id =>
    match s'.ks? id with
    | none => none
    | some k =>
      let b := s'.bytesUsed id
      let n := s'.keysUsed id
      if b > s.bytesUsed id ∧ (quota k).1 ≠ u64max ∧ b > (quota k).1 then some (.quota 10 3 id)
      else if n > s.keysUsed id ∧ (quota k).2 ≠ u64max ∧ n > (quota k).2 then some (.quota 10 4 id)
      else none

/-- The change leaves too little free space (R87): the net growth is positive and free space falls below the reserve. -/
def spaceFault (capacity : Nat) (s s' : Store) : Bool :=
  decide (s'.stored > s.stored) && decide (s'.stored + reserve > capacity)

/-- The change needs an index entry for which there is no room (R295, R296). -/
def indexFault (s s' : Store) : Bool :=
  decide (s'.indexCharge > s.indexCharge) && decide (s'.indexCharge > 1536 * 2 ^ 30) && Config.indexFull s'.indexCharge

end Sys2Proof.Machine
end

