-- ==== Sys2Proof/Machine/Operands.lean ====
section
/-! DEFINITION. Submission entries and their operand forms: parsing, descriptors, the checks of stages 1 and 2, and the
fields of the commands (03, 04, 05). -/

namespace Sys2Proof

/-- The entry a command row carries, with its opcode and the command-specific bits that the row fixes. -/
def Sqe.withCmd (e : Sqe) (off : Nat) (bs : Bytes) : Sqe := { e with cmd := Machine.overlay (Machine.padTo 16 e.cmd) off bs }

/-- The entry with bit 0 of command-specific byte `off` chosen by the row. -/
def Sqe.withBit (e : Sqe) (off : Nat) (b : Bool) : Sqe :=
  e.withCmd off [BitVec.ofNat 8 (Machine.byteAt e.cmd off / 2 * 2 + if b then 1 else 0)]

def Sqe.flag (e : Sqe) (i : Nat) : Bool := e.flags.getLsbD i
def Sqe.inlineValue (e : Sqe) : Bool := e.flag 0
def Sqe.dedup (e : Sqe) : Bool := e.flag 1
def Sqe.mediaAck (e : Sqe) : Bool := e.flag 2
def Sqe.strictDomino (e : Sqe) : Bool := e.flag 3
def Sqe.vlen (e : Sqe) : Nat := e.valLen.toNat
def Sqe.klen (e : Sqe) : Nat := e.keyLen.toNat
def Sqe.ksId (e : Sqe) : Nat := e.ks.toNat
/-- The number in `n` command-specific bytes from SQE offset `o`. -/
def Sqe.c (e : Sqe) (o n : Nat) : Nat := Machine.le e.cmd (o - 0x70) n

end Sys2Proof

namespace Sys2Proof.Machine

/-- A submission entry from its 128 bytes (R108), without the opcode. -/
def parseSqe (b : Bytes) : Sqe :=
  { flags := BitVec.ofNat 8 (le b 1 1), ks := BitVec.ofNat 16 (le b 2 2), tag := BitVec.ofNat 16 (le b 4 2)
    domTag := BitVec.ofNat 16 (le b 6 2), domSq := BitVec.ofNat 16 (le b 8 2), keyLen := BitVec.ofNat 16 (le b 10 2)
    valLen := BitVec.ofNat 32 (le b 12 4), reqId := BitVec.ofNat 64 (le b 16 8), operand := BitVec.ofNat 64 (le b 24 8)
    key := slice b 0x20 48, val := slice b 0x50 32, cmd := slice b 0x70 16 }

/-! Descriptors (R111, R113). -/

def descAddr (d : Bytes) : Nat := le d 0 8
def descRkey (d : Bytes) : Nat := le d 8 4
def descList (d : Bytes) : Bool := bit (le d 12 4) 31
def descLen (d : Bytes) : Nat := le d 12 4 % 2 ^ 31

/-- The faults of a descriptor in itself: length 0, or a bad scatter list (R113). -/
def descFault (d : Bytes) : Bool :=
  descLen d == 0 || (descList d && (descLen d % 16 != 0 || decide (descLen d < 16) || decide (descLen d > 1024)
    || descAddr d % 8 != 0))

/-- The buffers of a scatter list, or none when an entry is at fault (R113). -/
def listBufs (b : Bytes) : Option (List Buf) :=
  let es := (List.range (b.length / 16)).map fun i => slice b (16 * i) 16
  if es.any fun d => descList d || descLen d == 0 then none
  else some (es.map fun d => { addr := descAddr d, rkey := descRkey d, len := descLen d })

def bufTotal (bs : List Buf) : Nat := sumBy (·.len) bs

/-- LENGTH_SHORT or LENGTH_LONG when the buffers do not total the length (R113, R146). (log 14 DEDUCED) -/
def lengthFault (total want : Nat) : Option Res :=
  if total < want then some (.failed stShort 8) else if want < total then some (.failed stLong 8) else none

/-! Groups of opcodes (R134). -/

def knownOp (op : Nat) : Bool :=
  (decide (1 ≤ op) && decide (op ≤ 8)) || (decide (0x10 ≤ op) && decide (op ≤ 0x19)) || (decide (0x40 ≤ op) && decide (op ≤ 0x55))
def adminOp (op : Nat) : Bool := decide (0x40 ≤ op)
/-- Commands that return a value into their buffer under R146. -/
def returnsValue (op : Nat) : Bool := [0x01, 0x05, 0x08, 0x13].contains op
/-- Commands whose buffer receives output: R146, R174, R163, R206. -/
def hasOutput (op : Nat) : Bool := returnsValue op || [0x11, 0x12, 0x14, 0x47, 0x49, 0x55].contains op
/-- Commands that send a value (R152, R155, R159, R163). -/
def sendsValue (op : Nat) (e : Sqe) : Bool :=
  [0x02, 0x06, 0x07, 0x40, 0x42, 0x48, 0x50].contains op || (op == 0x4C && decide (e.c 0x70 1 ≤ 1))
/-- Commands on which DEDUP and MEDIA_ACK act (R147, R148). -/
def dedupOp (op : Nat) : Bool := [0x02, 0x03, 0x06, 0x07, 0x10].contains op
/-- Mutating commands (R134, 10). (log 43 DEDUCED) -/
def mutating (op : Nat) : Bool := dedupOp op || [0x16, 0x17, 0x40, 0x41, 0x42, 0x4C, 0x4D].contains op
/-- Commands refused for the mode in READ-ONLY (R528). -/
def modeOp (op : Nat) : Bool := dedupOp op || [0x16, 0x40, 0x41, 0x42].contains op
/-- Commands that carry a key (R53, R174). SCAN and SEARCH carry one unless FIRST is set. -/
def keyedOp (op : Nat) (e : Sqe) : Bool :=
  [0x01, 0x02, 0x03, 0x04, 0x05, 0x06, 0x07, 0x13].contains op || (op == 0x11 && !e.flag 5)
/-- Commands that name a snapshot through SNAP (R141, R175). -/
def snapOp (op : Nat) (e : Sqe) : Bool := [0x01, 0x04, 0x05, 0x11, 0x12].contains op && e.flag 4

/-- Opcode flags that are reserved (R141, R175): a mask of bits 7:4. -/
def reservedFlags (op : Nat) : Nat :=
  match op with
  | 0x01 => 0x80
  | 0x02 => 0x00
  | 0x03 => 0xB0
  | 0x04 => 0xE0
  | 0x05 => 0xE0
  | 0x06 => 0x20
  | 0x07 => 0x70
  | 0x08 => 0xD0
  | 0x10 => 0xE0
  | 0x11 => 0x00
  | 0x12 => 0x00
  | 0x13 => 0xD0
  | 0x16 => 0xE0
  | _ => 0xF0

/-- The key-space field must be 0 (R163, R174). -/
def ksMustBeZero (op : Nat) (e : Sqe) : Bool :=
  [0x10, 0x15, 0x17, 0x18, 0x19].contains op || (op == 0x16 && e.flag 4)
    || (adminOp op && !([0x40, 0x41, 0x42].contains op || (op == 0x55 && e.c 0x70 1 == 1)))

/-- The ranges of the value length that an opcode sets (R158, R159, R164, R174, R180, R206). -/
def valLenFault (op : Nat) (e : Sqe) : Bool :=
  match op with
  | 0x05 => e.vlen == 0
  | 0x06 => e.vlen == 0
  | 0x10 => decide (e.vlen < 48) || decide (e.vlen > 524288)
  | 0x11 => e.vlen == 0
  | 0x12 => e.vlen == 0
  | 0x14 => e.vlen % 1040 != 0 || decide (e.vlen / 1040 > 256)
  | 0x48 => e.vlen != 4 * e.c 0x72 2
  | 0x4C => if e.c 0x70 1 ≤ 1 then e.vlen != 192 else e.vlen != 0
  | 0x50 => decide (e.vlen < 4096) || decide (e.vlen > 2 ^ 20) || e.vlen % 4 != 0
  | _ => !(sendsValue op e || hasOutput op) && e.vlen != 0

/-- The first of a list of offsets whose check fails. -/
def firstFault (l : List (Bool × Nat)) : Option Nat := (l.find? (·.1)).map (·.2)

/-- Per-opcode rules on the command-specific bytes (R104, R107, R162, R164-R174, R208, R271, R273, R611). `named` says that the queue or
watch that the entry names is one of its connection's. (log 18 DEDUCED) -/
def cmdFault (named : Bool) (op : Nat) (e : Sqe) : Option Nat :=
  let c := e.c
  match op with
  | 0x08 => firstFault [(field (le e.cmd 0 9) 56 12 != e.ksId, 0x02)]
  | 0x11 => firstFault [(c 0x70 4 == 0 || decide (c 0x70 4 > 65536), 0x70), (decide (c 0x74 4 > 65536), 0x74)]
  | 0x43 =>
    let cq := bit (c 0x7A 1) 0
    firstFault
      [ (e.operand.toNat % (if cq then 32 else 128) != 0, 0x18),
        (decide (c 0x74 4 < 16) || decide (c 0x74 4 > 65536), 0x74),
        (if cq then c 0x78 2 != 0 else !named, 0x78),
        (decide (c 0x7A 1 ≥ 8) || (cq && bit (c 0x7A 1) 1) || (!cq && bit (c 0x7A 1) 2), 0x7A),
        ((c 0x7B 1 == 0) != cq, 0x7B),
        (cq && (c 0x7C 2 == 0 || decide (c 0x7C 2 > 256)), 0x7C),
        (if cq then c 0x7E 2 == 0 || decide (c 0x7E 2 > 1000) else c 0x7E 2 != 0, 0x7E) ]
  | 0x15 => firstFault [(!named, 0x70)]
  | 0x44 => firstFault [(!named, 0x70), (decide (c 0x72 1 > 1), 0x72)]
  | 0x45 => firstFault [(decide (c 0x72 1 > 1), 0x72)]
  | 0x47 => firstFault [(c 0x70 2 % 4 != 0, 0x70), (c 0x72 2 == 0 || decide (c 0x72 2 > 256)
      || decide (c 0x70 2 + 4 * c 0x72 2 > 0x10000), 0x72)]
  | 0x48 => firstFault [(c 0x70 2 % 4 != 0, 0x70), (c 0x72 2 == 0 || decide (c 0x72 2 > 256)
      || decide (c 0x70 2 + 4 * c 0x72 2 > 0x10000), 0x72)]
  | 0x49 => firstFault
      [ (c 0x70 1 == 0 || decide (c 0x70 1 > 8), 0x70),
        (c 0x70 1 == 1 && c 0x72 2 != 0xFFFF && decide (c 0x72 2 ≥ 0x4000), 0x72),
        (c 0x70 1 == 2 && decide (c 0x72 2 > 1), 0x72),
        ((c 0x70 1 == 4 || c 0x70 1 == 5) && c 0x72 2 != 0, 0x72),
        (c 0x70 1 == 2 && c 0x74 8 % 64 != 0, 0x74) ]
  | 0x4C => firstFault
      [ (decide (c 0x70 1 > 2), 0x70), (c 0x70 1 == 0 && decide (c 0x72 2 > 0x1FFF), 0x72),
        (c 0x70 1 == 1 && (c 0x74 4 == 0 || c 0x74 4 == 0xFFFFFFFF), 0x74), (c 0x70 1 == 1 && decide (c 0x78 1 > 1), 0x78) ]
  | 0x4D => firstFault [(decide (c 0x70 1 > 1), 0x70), (c 0x70 1 == 0 && decide (c 0x72 2 > 0x1FFF), 0x72)]
  | 0x4E => firstFault [(decide (c 0x70 1 > 0xB), 0x70), (decide (c 0x71 1 > 3), 0x71)]
  | 0x4F => firstFault [(!([1, 2, 0xF].contains (c 0x70 1)), 0x70)]
  | 0x50 => firstFault [(c 0x70 4 % 4096 != 0 || decide (c 0x70 4 + e.vlen > 24 * 2 ^ 20), 0x70)]
  | 0x52 => firstFault [(decide (c 0x70 1 > 1), 0x70)]
  | 0x54 => firstFault [(decide (c 0x70 1 > 1), 0x70), (c 0x74 4 != 0x53414E49, 0x74)]
  | 0x55 => firstFault [(decide (c 0x70 1 > 3), 0x70)]
  | _ => none

/-- The checks of stages 1 and 2 (R139) on an entry: in the order of R108, then opcode flags, then the rules of the opcode
in ascending offset. `dup` says that the tag is already outstanding on the SQ (R110), `named` is as in `cmdFault`. A command that takes no
key has any key length at fault (R144, R174). (log 13 DEDUCED) -/
def fetchFault (adminSq dup named : Bool) (op : Nat) (e : Sqe) : Option Res :=
  if !knownOp op || (adminOp op && !adminSq) then some (.failed stBadOpcode 1)
  else
    let bad := fun (off : Nat) => some (Res.badField 2 off)
    if e.ksId ≥ 0x1000 then bad 2
    else if dup then bad 4
    else if e.domTag.toNat ≠ 0xFFFF ∧ e.domSq.toNat ≥ 0x4000 then bad 8
    else if ¬ keyedOp op e ∧ ¬ (op = 0x12 ∧ ¬ e.flag 5) ∧ e.klen ≠ 0 then bad 0xA
    else if e.klen > 1024 then some (.failed stKeyTooLong 2)
    else if keyedOp op e ∧ e.klen = 0 then bad 0xA
    else if e.inlineValue ∧ e.vlen > 32 then bad 1
    else if e.flags.toNat &&& reservedFlags op ≠ 0 then bad 1
    else if e.inlineValue ∧ ¬ sendsValue op e then bad 1
    else if op = 2 ∧ e.flag 4 ∧ (e.flag 5 ∨ e.flag 6) then bad 1
    else if (op = 0x11 ∨ op = 0x12) ∧ e.flag 5 ∧ e.flag 6 then bad 1
    else if ksMustBeZero op e ∧ e.ksId ≠ 0 then bad 2
    else if valLenFault op e then bad 0xC
    else if dedupOp op ∧ e.dedup ∧ e.reqId = 0 then bad 0x10
    else if (op = 2 ∨ op = 6) ∧ e.flag 6 ∧ e.operand = 0 then bad 0x18
    else
      match cmdFault named op e with
      | some off => bad off
      | none => none

/-! Batch lists (R178-R180) and pattern blocks (R190-R192). -/

/-- One entry of a batch list, or none when it breaks a rule of R179, R152 or R159. `area` is where the data area begins. -/
def batchEntry (l : Bytes) (area i : Nat) : Option BatchOp :=
  let b := slice l (16 + 32 * i) 32
  let op := byteAt b 0
  let flags := byteAt b 1
  let klen := le b 4 2
  let vlen := le b 8 4
  let ko := le b 12 4
  let vo := le b 24 4
  let desc := bit flags 0
  let hasVal := op == 2 || op == 6 || op == 7
  let resv := if op == 4 then 0xF0 else reservedFlags op
  let inArea := fun (o n : Nat) => decide (area ≤ o) && decide (o + n ≤ l.length)
  let ok := [2, 3, 4, 6, 7].contains op && flags &&& 0x0E == 0 && flags &&& resv == 0 && decide (le b 2 2 < 0x1000)
    && decide (1 ≤ klen) && decide (klen ≤ 1024) && le b 6 2 == 0 && le b 28 4 == 0 && inArea ko klen
    && (hasVal || vlen == 0) && (if vlen == 0 then vo == 0 else inArea vo (if desc then 16 else vlen))
    && !(op == 2 && bit flags 4 && (bit flags 5 || bit flags 6)) && !((op == 2 || op == 6) && bit flags 6 && le b 16 8 == 0)
    && !(op == 6 && vlen == 0)
  if ok then
    some { opcode := op, flags := flags, ks := le b 2 2, key := slice l ko klen, valLen := vlen, operand := le b 16 8
           inl := if desc then [] else slice l vo vlen, desc := if desc && vlen != 0 then some (slice l vo 16) else none }
  else none

/-- The entries from index `i` on, or the index of the first faulty one. -/
def batchEntries (l : Bytes) (area : Nat) : Nat → Nat → Except Nat (List BatchOp)
  | 0, _ => .ok []
  | n + 1, i =>
    match batchEntry l area i with
    | none => .error i
    | some o =>
      match batchEntries l area n (i + 1) with
      | .error j => .error j
      | .ok os => .ok (o :: os)

/-- A batch list (R178-R180): its operations, or the index reported for the fault (0xFFFF for the header, of which a count that the list
has no room for is one). (log 113 DESIGN CHOICE) -/
def parseBatch (l : Bytes) : Except Nat (List BatchOp) :=
  let n := le l 0 2
  let lens := (List.range n).map fun i => le l (16 + 32 * i + 8) 4
  if n = 0 ∨ n > 256 ∨ le l 2 2 ≠ 0 ∨ le l 4 4 ≠ l.length ∨ 16 + 32 * n > l.length ∨ le l 8 8 > 0x10000000
      ∨ le l 8 8 ≠ lens.foldl (· + ·) 0 then .error 0xFFFF
  else batchEntries l (16 + 32 * n) n 0

/-- The pattern block breaks no rule of R190. -/
def patternOk (p : Bytes) (watch ordered : Bool) : Bool :=
  let lo := le p 0x80 2
  let hi := le p 0x82 2
  decide (1 ≤ lo) && decide (lo ≤ hi) && decide (hi ≤ 1024) && le p 0x8C 4 == 0 && le p 0x98 8 == 0 &&
    (if watch then le p 0x85 3 == 0 && decide (1 ≤ byteAt p 0x84) && decide (byteAt p 0x84 ≤ 7) && le p 0x88 4 == 0
        && le p 0x90 8 == 0
     else decide (1 ≤ le p 0x84 4) && decide (le p 0x84 4 ≤ 65536) && decide (le p 0x88 4 ≤ 65536)
        && (!ordered || le p 0x90 8 == 0))

/-- A key matches a pattern (R191). -/
def patternMatch (p key : Bytes) : Bool :=
  decide (le p 0x80 2 ≤ key.length) && decide (key.length ≤ le p 0x82 2) &&
    (List.range 64).all fun i =>
      let care := p.getD (0x40 + i) 0
      care == 0 || (decide (i < key.length) && (key.getD i 0 ^^^ p.getD i 0) &&& care == 0)

/-- The fixed prefix of a pattern (R192). -/
def fixedPrefix (p : Bytes) : Bytes := ((p.take 64).zip (slice p 0x40 64)).takeWhile (fun x => x.2 == 0xFF) |>.map (·.1)

end Sys2Proof.Machine
end

