-- ==== Sys2Proof/Machine/Tiles.lean ====
section
/-! DEFINITION. The CAM tiles: roles, slots and their accounting, pattern rows, row groups and the pre-filter, role changes
(R297-R313, R331). -/

namespace Sys2Proof.Machine

/-! Tiles, roles and quads (R298). -/

/-- Quad `q` has the pattern role. -/
def Idx.patternQuad (i : Idx) (q : Nat) : Bool := bit i.pquad q

def Idx.tile (i : Idx) (t : Nat) : Tile :=
  i.tiles.getD t { fenced := true, pend := false, pfEn := false, pos := 0, srch := 0, upd := 0, idle := 0, grpe := 0, ahead := 0, todo := 0 }

/-- A role change gives quad `q` the pattern role. -/
def Idx.gaining (i : Idx) (q : Nat) : Bool := !i.patternQuad q && (match i.pnext with
  | some n => bit n q
  | none => false)

/-- The tile takes part in index lookups. -/
def Idx.indexTile (i : Idx) (t : Nat) : Bool := !i.patternQuad (t / 4) && !i.gaining (t / 4) && !(i.tile t).fenced

/-- Every tile of the quad works. -/
def Idx.quadWhole (q : Nat) (i : Idx) : Bool := (List.range 4).all fun p => !(i.tile (4 * q + p)).fenced

/-- The quad takes pattern work: pattern role, no fenced tile (R313). -/
def Idx.quadOk (i : Idx) (q : Nat) : Bool := i.patternQuad q && i.quadWhole q

/-- The lowest quad that takes pattern work. (log 38 DESIGN CHOICE) -/
def Idx.workQuad (i : Idx) : Option Nat := (List.range 4).find? i.quadOk

/-- Changes the tiles that satisfy `p`. -/
def Idx.onTiles (p : Nat → Bool) (f : Tile → Tile) (i : Idx) : Idx :=
  { i with tiles := (numbered i.tiles).map fun x => if p x.1 then f x.2 else x.2 }

/-! Slots (R306-R308): every slot of a running tile is counted once. -/

/-- `n` update slots of a tile, counted ahead of the ticks that hold them. -/
def Tile.updates (n : Nat) (t : Tile) : Tile := { t with upd := t.upd + n, ahead := t.ahead + n }

/-- `n` update slots in the tiles that satisfy `p`. -/
def Idx.updates (n : Nat) (p : Nat → Bool) (i : Idx) : Idx := i.onTiles p (Tile.updates n)

/-- One search slot of a tile that energises `g` groups. -/
def Tile.searched (g : Nat) (t : Tile) : Tile := { t with srch := t.srch + 1, grpe := t.grpe + g, ahead := t.ahead + 1 }

/-- The eight slots of a tick of 40 ns: those counted ahead, the row writes of a change in progress, and idle ones. -/
def Tile.tick (t : Tile) : Tile :=
  if t.fenced then t
  else
    let past := min 8 t.ahead
    let moved := min (8 - past) t.todo
    { t with ahead := t.ahead - past, todo := t.todo - moved, upd := t.upd + moved, idle := t.idle + (8 - past - moved)
             pend := t.pend && (t.todo == 0 || moved != t.todo) }

/-- Tiles of working order in quad `q`. -/
def Idx.ofQuad (i : Idx) (q t : Nat) : Bool := t / 4 == q && !(i.tile t).fenced

/-! The rows of a pattern and the search words (R300-R302). -/

/-- Every care bit lies in key bytes 0-31 (R301). -/
def narrow (pat : Bytes) : Bool := (slice pat 0x60 32).all (· == 0)

/-- The position that a tile of a quad plays for a pattern: a narrow one is held by each pair (R301). (log 119 DEDUCED) -/
def patternPos (pat : Bytes) (p : Nat) : Nat := if narrow pat then p % 2 else p

/-- Value and care bits of a pattern's row at position `p` (R300). -/
def patternRow (search : Bool) (id ks : Nat) (pat : Bytes) (p : Nat) : Nat × Nat :=
  let top : Nat × Nat :=
    if p = 0 then (fbits 0 12 ks, 0xFFF) else if p = 1 then (if search then (0x800 + fbits 0 6 id, 0x83F) else (0, 0x800)) else (0, 0)
  (leNat (slice pat (16 * p) 16) + fbits 128 12 top.1 + fbits 140 2 p + 2 * 2 ^ 142,
   leNat (slice pat (0x40 + 16 * p) 16) + fbits 128 12 top.2 + 0xF * 2 ^ 140)

/-- The search word at position `p` for a key of a key space, for the watches or for one search slot (R300, R302). -/
def patternWord (search : Bool) (id ks : Nat) (key : Bytes) (p : Nat) : Nat :=
  let top := if p = 0 then ks else if p = 1 then (if search then 0x800 + fbits 0 6 id else 0) else 0
  leNat (slice (padTo 64 key) (16 * p) 16) + fbits 128 12 top + fbits 140 2 p + 2 * 2 ^ 142

/-- A row matches a search word: every cared position agrees. -/
def rowMatch (row : Nat × Nat) (w : Nat) : Bool := (row.1 ^^^ w) &&& row.2 == 0

/-- The match lines of the tiles side by side (R300). -/
def tilesMatch (search : Bool) (id ks : Nat) (pat key : Bytes) : Bool :=
  (List.range 4).all fun p =>
    let q := patternPos pat p
    rowMatch (patternRow search id ks pat q) (patternWord search id ks key q)

/-- The checks of a match against the pattern's metadata (R302). -/
def metaMatch (pat key : Bytes) : Bool :=
  decide (le pat 0x80 2 ≤ key.length) && decide (key.length ≤ le pat 0x82 2) &&
    (List.range 64).all fun i => pat.getD (0x40 + i) 0 == 0 || decide (i < key.length)

/-- The pattern engine's answer: the tiles, then the metadata (R302). -/
def engineMatch (search : Bool) (id ks : Nat) (pat key : Bytes) : Bool := tilesMatch search id ks pat key && metaMatch pat key

/-! Row groups and the pre-filter (R303-R305). -/

/-- The tag of a row that a group can hold in a tile: its tag field when all six positions are cared for (R305). -/
def tagOf (row : Nat × Nat) (pos : Nat) : Option Nat := if field row.2 pos 6 == 0x3F then some (field row.1 pos 6) else none

/-- The row of a pattern in the tile at position `p` of its quad. -/
def PatternRow.word (r : PatternRow) (p : Nat) : Nat × Nat := patternRow r.search r.id r.ks r.pat (patternPos r.pat p)

/-- Patterns in a quad. -/
def Idx.inQuad (i : Idx) (q : Nat) : List PatternRow := i.prows.filter fun r => r.quad == q

/-- The open groups of a tile: those that hold a row whose tag field does not name them (R305). A group stops being open when the last such
row leaves it. (log 157 DESIGN CHOICE) -/
def Idx.openGroups (i : Idx) (t : Nat) : List Nat :=
  if i.patternQuad (t / 4) && (i.tile t).pfEn then
    (List.range 64).filter fun g => (i.inQuad (t / 4)).any fun r => r.row / 256 == g && tagOf (r.word (t % 4)) (i.tile t).pos != some g
  else []

/-- The lowest free row from row `lo` on, of `n`. -/
def freeRow (used : List Nat) (lo n : Nat) : Option Nat :=
  (((List.range (min n (used.length + 1))).map (lo + ·)).find? fun r => !used.contains r)

/-- The row index that a new pattern takes in a quad: in the group of its tag, as the lowest tile with the pre-filter and all six
positions cared for has it, while the group has room; else in an open group, or without the pre-filter in any (R305).
(log 120 DESIGN CHOICE) -/
def Idx.patternRowFor (q : Nat) (r : PatternRow) (i : Idx) : Nat :=
  let used := (i.inQuad q).map (·.row)
  let pf := (List.range 4).filter fun p => (i.tile (4 * q + p)).pfEn
  let open_ := pf.flatMap fun p => i.openGroups (4 * q + p)
  let tag := pf.findSome? fun p => tagOf (r.word p) (i.tile (4 * q + p)).pos
  let group := fun (g : Nat) => freeRow used (256 * g) 256
  let other := if pf.isEmpty then freeRow used 0 16384 else (open_ ++ List.range 64).findSome? group
  ((tag.bind group).or other).getD 0

/-- Writes a pattern into a quad. -/
def Idx.placeRow (r : PatternRow) (i : Idx) : Idx := { i with prows := i.prows ++ [{ r with row := i.patternRowFor r.quad r }] }

/-- Valid rows of a tile (R331). -/
def Idx.rows (i : Idx) (t : Nat) : Nat :=
  if (i.tile t).fenced then 0
  else if i.patternQuad (t / 4) then (i.inQuad (t / 4)).length else (i.cam.filter fun r => r.tile == t).length

/-- A change of the tile, or of its quad, is in progress: all groups are energised (R331). -/
def Idx.changing (i : Idx) (q : Nat) : Bool := (List.range 4).any fun p => (i.tile (4 * q + p)).pend || (i.tile (4 * q + p)).todo != 0

/-- Groups that a search with word `w` energises in a tile (R303-R305): the one its tag field names and the open ones. -/
def Idx.energised (i : Idx) (t w : Nat) : Nat :=
  let x := i.tile t
  if !x.pfEn || x.pend || (i.patternQuad (t / 4) && i.changing (t / 4)) then 64
  else
    let open_ := i.openGroups t
    open_.length + (if open_.contains (field w x.pos 6) then 0 else 1)

/-! Lookups of a key (R299, R304). -/

/-- An index-role row or search word as a 144-bit number (R299). -/
def camWord (ks fp : Nat) : Nat := 1 * 2 ^ 142 + fbits 128 12 ks + fbits 64 64 fp

/-- One search of every index tile in one slot (R308). -/
def Idx.searchIndex (ks fp : Nat) (i : Idx) : Idx :=
  { i with tiles := (numbered i.tiles).map fun x =>
      if i.indexTile x.1 then x.2.searched (i.energised x.1 (camWord ks fp)) else x.2 }

/-! The pattern engine (R310-R313). -/

/-- A key streams through a quad: through pair `pair` alone, or through all four tiles (R310). -/
def Idx.searchPattern (q : Nat) (pair : Option Nat) (word : Nat → Nat) (i : Idx) : Idx :=
  { i with tiles := (numbered i.tiles).map fun x =>
      let p := x.1 % 4
      let on := match pair with
        | some k => p / 2 == k
        | none => true
      if x.1 / 4 == q && on then x.2.searched (i.energised x.1 (word (if pair.isSome then p % 2 else p))) else x.2 }

/-- Key number `n` of a SEARCH (R310): two keys a slot, one in each pair, for a narrow pattern. -/
def Idx.searchKey (s : SearchSlot) (n : Nat) (key : Bytes) (i : Idx) : Idx :=
  if i.quadOk s.quad then
    i.searchPattern s.quad (if narrow s.pat then some (n % 2) else none) (patternWord true s.slot s.ks key)
  else i

/-- The check of a write against every watch (R310): through one pair when all watches are narrow. -/
def Idx.checkKey (n ks : Nat) (key : Bytes) (i : Idx) : Idx :=
  match i.workQuad with
  | none => i
  | some q =>
    let all := (i.inQuad q).all fun r => r.search || narrow r.pat
    i.searchPattern q (if all then some (n % 2) else none) (patternWord false 0 ks key)

/-- Writes the rows of watch `id` into every quad that takes pattern work, or is about to in a role change, one slot in each of its tiles
(R307, R311, R331). -/
def Idx.addWatch (id ks : Nat) (pat : Bytes) (i : Idx) : Idx :=
  ((List.range 4).filter fun q => i.quadOk q || (i.gaining q && i.quadWhole q)).foldl (fun i q =>
    (i.placeRow { quad := q, row := 0, search := false, id := id, ks := ks, pat := pat }).updates 1 (i.ofQuad q)) i

/-- Invalidates the patterns that satisfy `p`: one slot for each row in each tile of its quad (R307). -/
def Idx.dropRows (p : PatternRow → Bool) (i : Idx) : Idx :=
  let gone := i.prows.filter p
  gone.foldl (fun i r => i.updates 1 (i.ofQuad r.quad)) { i with prows := i.prows.filter fun r => !p r }

def Idx.dropWatch (id : Nat) (i : Idx) : Idx := i.dropRows fun r => !r.search && r.id == id

/-- The pattern of search slot `s` is written into quad `q`. -/
def Idx.addSearch (s : SearchSlot) (q : Nat) (i : Idx) : Idx :=
  (i.placeRow { quad := q, row := 0, search := true, id := s.slot, ks := s.ks, pat := s.pat }).updates 1 (i.ofQuad q)

/-- A SEARCH takes the lowest free search slot and writes its pattern into a quad (R311); firmware holds it where none works. -/
def Idx.takeSlot (sq ord ks : Nat) (pat : Bytes) (i : Idx) : Idx :=
  match lowestFree 64 (i.slots.map (·.slot)) with
  | none => i
  | some n =>
    let s : SearchSlot := { slot := n, quad := i.workQuad.getD 3, ks := ks, pat := pat, sq := sq, ord := ord }
    let i : Idx := { i with slots := i.slots ++ [s] }
    if i.workQuad.isSome then i.addSearch s s.quad else i

/-- A SEARCH that ends gives its slot back and its rows are invalidated. -/
def Idx.freeSlot (sq ord : Nat) (i : Idx) : Idx :=
  match i.slots.find? fun s => s.sq == sq && s.ord == ord with
  | none => i
  | some s => ({ i with slots := i.slots.filter fun x => x.slot != s.slot } : Idx).dropRows fun r => r.search && r.id == s.slot

/-- The running SEARCHes whose quad takes no pattern work move to quad `q`, which takes it (R313). -/
def Idx.moveSearches (q : Nat) (i : Idx) : Idx :=
  (i.slots.filter fun s => !i.quadOk s.quad).foldl (fun i s =>
    ({ i with prows := i.prows.filter fun r => !(r.search && r.id == s.slot)
              slots := i.slots.map fun x => if x.slot == s.slot then { x with quad := q } else x } : Idx).addSearch { s with quad := q } q) i

/-- Quad `q` of index tiles takes the pattern role at once: its index rows go, the watches in `ws` (ID, key space, pattern) are written
into it. -/
def Idx.makePattern (q : Nat) (ws : List (Nat × Nat × Bytes)) (i : Idx) : Idx :=
  let i : Idx := { i with pquad := i.pquad + 2 ^ q, cam := i.cam.filter fun r => r.tile / 4 != q }
  ws.foldl (fun i w => (i.placeRow { quad := q, row := 0, search := false, id := w.1, ks := w.2.1, pat := w.2.2 }).updates 1 (i.ofQuad q)) i

/-! `IDX_PFCFG` and `IDX_TILECFG` (R331). -/

/-- The rows of a pattern quad are placed again, each that moves with a write and an invalidate in every tile. -/
def Idx.regroup (q t : Nat) (i : Idx) : Idx :=
  let old := i.inQuad q
  let j := old.foldl (fun i r => i.placeRow r) { i with prows := i.prows.filter fun r => r.quad != q }
  let moved := ((old.zip (j.inQuad q)).filter fun x => x.1.row != x.2.row).length
  if moved = 0 then j
  else (j.onTiles (j.ofQuad q) fun x => { x with todo := x.todo + 2 * moved }).onTiles (· == t) fun x => { x with pend := true }

/-- `IDX_PFCFG` of tile `t`: an index-role tile loses its rows in common update slots, a pattern-role tile regroups its rows.
(log 83 DESIGN CHOICE) -/
def Idx.pfCfg (t v : Nat) (i : Idx) : Idx :=
  let rows := i.rows t
  let i := i.onTiles (· == t) fun x => { x with pfEn := bit v 31, pos := min 138 (field v 0 8) }
  if (i.tile t).fenced then i
  else if i.patternQuad (t / 4) then i.regroup (t / 4) t
  else ({ i with cam := i.cam.filter fun r => r.tile != t } : Idx).updates rows i.indexTile

/-- A role change takes effect: the old pattern quads are cleared, running patterns move (R331). -/
def Idx.roleDone (i : Idx) : Idx :=
  match i.pnext with
  | none => i
  | some n =>
    let i := i.dropRows fun r => !bit n r.quad
    let i : Idx := ({ i with pquad := n, pnext := none } : Idx).onTiles (fun t => bit i.pquad (t / 4) != bit n (t / 4) && !(i.tile t).fenced)
      fun x => { x with pend := false }
    match i.workQuad with
    | some q => { i.moveSearches q with fwMatch := false }
    | none => i

/-- `IDX_TILECFG`: watches are copied into the new pattern quads before the old ones are cleared; with nothing to copy the roles change
at once. A write during a change starts it anew. -/
def Idx.tileCfg (v : Nat) (ws : List (Nat × Nat × Bytes)) (i : Idx) : Idx :=
  let n := field v 0 4
  if n = 0 then { i with cfgErr := true }
  else
    let was := fun (q : Nat) => i.pnext.any fun m => bit m q != i.patternQuad q
    let i : Idx := ({ i with pnext := some n, prows := i.prows.filter fun r => i.patternQuad r.quad } : Idx).onTiles (fun t => was (t / 4))
      fun x => { x with pend := false, todo := 0 }
    let gained := fun (q : Nat) => bit n q && !bit i.pquad q
    let copies := (List.range 4).filter fun q => gained q && i.quadWhole q
    let j : Idx := { i with cam := i.cam.filter fun r => !gained (r.tile / 4) }
    let j := copies.foldl (fun j q =>
      ws.foldl (fun j w => j.placeRow { quad := q, row := 0, search := false, id := w.1, ks := w.2.1, pat := w.2.2 }) j) j
    let wait := !copies.isEmpty && !ws.isEmpty
    let j := j.onTiles (fun t => bit n (t / 4) != bit i.pquad (t / 4) && !(i.tile t).fenced)
      fun x => { x with pend := wait, todo := 0 }
    if wait then j.onTiles (fun t => copies.contains (t / 4)) fun x => { x with todo := ws.length } else j.roleDone

/-- The slots of a tick in every tile; a role change whose copies are made takes effect. -/
def Idx.tick (i : Idx) : Idx :=
  let i := i.onTiles (fun _ => true) Tile.tick
  if i.pnext.isSome && (List.range 16).all fun t => !i.gaining (t / 4) || (i.tile t).todo == 0 then i.roleDone else i

end Sys2Proof.Machine
end

