-- ==== Sys2Proof/Machine/Index.lean ====
section
/-! DEFINITION. The doll map: index pages, the DRAM index cache, CAM rows, lookups through the three levels, rebuilds
(R284-R293, R307-R309, R327). -/

namespace Sys2Proof.Machine

/-! Pages (R292, R293). -/

/-- `n` entries of a total index charge fit in a page: any eight do (R293), beyond that as the page format has it.
(log 37 DESIGN CHOICE) -/
def pageFits (n charge : Nat) : Bool := decide (n ≤ 8) || Config.pageRoom n charge

/-- The index charge of a version (R295). -/
def Rec.charge (r : Rec) : Nat := roundUp (24 + r.key.length) 8

def Store.isOrdered (ks : Nat) (s : Store) : Bool := (s.ks? ks).any fun k => k.index == .ordered

/-- The one page of a key space that has never split. -/
def IdxPage.root (ks : Nat) : IdxPage := { ks := ks, no := 0, fp := 0, bits := 64, key := [], dirty := false }

/-- The pages of a key space. -/
def Idx.pagesOf (ks : Nat) (i : Idx) : List IdxPage :=
  match i.pages.filter fun p => p.ks == ks with
  | [] => [.root ks]
  | l => l

/-- The bucket whose range holds a fingerprint, or the leaf that holds a key: the one with the highest first key at or below it. -/
def Idx.pageOf (ordered : Bool) (ks fp : Nat) (key : Bytes) (i : Idx) : IdxPage :=
  let mine := i.pagesOf ks
  (if ordered then
      (mine.filter fun p => !bytesLt key p.key).foldl (fun b p => match b with
        | some x => if bytesLt x.key p.key then some p else some x
        | none => some p) none
    else mine.find? fun p => fp / 2 ^ p.bits == p.fp / 2 ^ p.bits).getD (.root ks)

/-- The entries of a page in index order, each with its fingerprint: by fingerprint or by key, the versions of a key by version. -/
def Idx.entries (s : Store) (p : IdxPage) (i : Idx) : List (Nat × Rec) :=
  let ordered := s.isOrdered p.ks
  let all := (s.recs.filter fun r => r.ks == p.ks).map fun r => (s.fingerprint r.ks r.key, r)
  sortLt (fun a b => (!ordered && decide (a.1 < b.1)) || ((ordered || a.1 == b.1) &&
      (bytesLt a.2.key b.2.key || (a.2.key == b.2.key && decide (a.2.version < b.2.version)))))
    (all.filter fun e => (i.pageOf ordered p.ks e.1 e.2.key).no == p.no)

/-- The entries laid out: the page of the chain that holds each, and its offset there (R292). `n` and `off` say how far the page of the
chain is filled. -/
def layout : List (Nat × Rec) → Nat → Nat → Nat → List (Nat × Nat × Rec)
  | [], _, _, _ => []
  | e :: es, n, part, off =>
    let c := e.2.charge
    if pageFits (n + 1) (off + c) then (part, off, e.2) :: layout es (n + 1) part (off + c)
    else (part + 1, 0, e.2) :: layout es 1 (part + 1) c

/-- Where a lookup of a key ends: the page, the page of its chain, and the offset of the entry of its current version. -/
def Idx.spot (s : Store) (ks : Nat) (key : Bytes) (i : Idx) : IdxPage × Nat × Option Nat :=
  let p := i.pageOf (s.isOrdered ks) ks (s.fingerprint ks key) key
  match (layout (i.entries s p) 0 0 0).find? fun x => x.2.2.key == key && x.2.2.cur with
  | some x => (p, x.1, some x.2.1)
  | none => (p, 0, none)

/-- Entries fit in one page, or all are one fingerprint's or one key's and make a chain. -/
def whole (alike : Nat × Rec → Nat × Rec → Bool) (es : List (Nat × Rec)) : Bool :=
  pageFits es.length (sumBy (fun (e : Nat × Rec) => e.2.charge) es) || (match es with
    | [] => true
    | e :: rest => rest.all (alike e))

/-- Splits a range of `2 ^ bits` fingerprints in halves until every bucket is whole (R292): first fingerprints and bits. -/
def splitRange (es : List (Nat × Rec)) : Nat → Nat → List (Nat × Nat)
  | 0, lo => [(lo, 0)]
  | b + 1, lo =>
    let mine := es.filter fun e => e.1 / 2 ^ (b + 1) == lo / 2 ^ (b + 1)
    if whole (fun x y => x.1 == y.1) mine then [(lo, b + 1)] else splitRange es b lo ++ splitRange es b (lo + 2 ^ b)

/-- Splits a leaf in halves between keys until every leaf is whole (R293): the first keys of the leaves. (log 121 DESIGN CHOICE) -/
def splitLeaf : Nat → Bytes → List (Nat × Rec) → List Bytes
  | 0, low, _ => [low]
  | n + 1, low, es =>
    if whole (fun x y => x.2.key == y.2.key) es then [low]
    else
      let first := match es with
        | e :: _ => e.2.key
        | [] => low
      let cut := match es[es.length / 2]? with
        | some e => if e.2.key = first then (es.find? fun e => e.2.key != first).map (·.2.key) else some e.2.key
        | none => none
      match cut with
      | none => [low]
      | some k =>
        splitLeaf n low (es.filter fun e => bytesLt e.2.key k) ++ splitLeaf n k (es.filter fun e => !bytesLt e.2.key k)

/-! The DRAM index cache (R285, R288, R289). -/

/-- DRAM channels out of service for good. -/
def Dmc.retired (m : Dmc) : Nat := (m.chans.filter fun c => c.state == 5).length

/-- Pages the DRAM index cache holds (R289, R37, R504): 40 GiB, 32 GiB with one channel retired, 16 GiB with two. -/
def Drive.cacheCap (d : Drive) : Nat := if d.dmc.retired = 0 then 2621440 else if d.dmc.retired = 1 then 2097152 else 1048576

/-- The pages that stay in the cache: directories and interior nodes (R289). A key space of one page needs none. -/
def Idx.resident (s : Store) (i : Idx) : Nat :=
  sumBy (fun (k : KeySpace) =>
    let n := (i.pagesOf k.id).length
    if n ≤ 1 then 0 else if k.index == .ordered then Config.interiorPages k.id n else Config.dirPages n) s.kss

/-- Flash pages that a lookup reads when it misses the cache: one, or one per level below the resident nodes of an ORDERED key space whose
interior nodes no longer fit (R289). -/
def Idx.flashPages (s : Store) (ks cap : Nat) (i : Idx) : Nat :=
  if s.isOrdered ks && decide (cap < i.resident s) then max 1 (Config.levelsBelow ks (i.pagesOf ks).length) else 1

/-- Bytes of the shared area of DRAM: 56 GiB, less the DRAM of retired channels (R35, R37, R504). -/
def Drive.sharedArea (d : Drive) : Nat := (56 - 16 * min 2 d.dmc.retired) * 2 ^ 30

/-- Index pages in the cache, as `IDX_CACHEPG` counts them. -/
def Drive.cachedPages (d : Drive) : Nat := min d.cacheCap (d.idx.cached.length + d.idx.resident d.kvx.store)

/-- A page of a chain is in the cache: its frame. -/
def Idx.frame? (ks no part : Nat) (i : Idx) : Option Nat :=
  (i.cached.find? fun c => c.ks == ks && c.no == no && c.part == part).map (·.frame)

/-- Invalidates index rows: the common update slots hold one row of each tile (R288, R308). -/
def Idx.invalidate (p : CamRow → Bool) (i : Idx) : Idx :=
  let gone := i.cam.filter p
  let n := ((List.range 16).map fun t => (gone.filter fun r => r.tile == t).length).foldl max 0
  ({ i with cam := i.cam.filter fun r => !p r } : Idx).updates n i.indexTile

/-- Pages leave the cache: every row that points into them is invalidated, what is newer than its flash copy is written back. -/
def Idx.pageOut (gone : List CachedPage) (i : Idx) : Idx :=
  let i := i.invalidate fun r => gone.any fun c => c.frame == r.addr / 16384
  { i with pages := i.pages.map fun p => if gone.any fun c => c.ks == p.ks && c.no == p.no then { p with dirty := false } else p
           cached := i.cached.filter fun c => !gone.contains c }

/-- The cache holds `cap` pages, the resident ones among them: the least recently used of the others leave. -/
def Idx.shrink (s : Store) (cap : Nat) (i : Idx) : Idx := i.pageOut (i.cached.take (i.cached.length - (cap - i.resident s)))

/-- Uses an index page: it becomes the most recently used one. -/
def Idx.usePage (s : Store) (ks no part cap : Nat) (i : Idx) : Idx :=
  let f := (i.frame? ks no part).getD ((freeRow (i.cached.map (·.frame)) 0 (i.cached.length + 1)).getD 0)
  let c : CachedPage := { ks := ks, no := no, part := part, frame := f }
  ({ i with cached := i.cached.filter (· != c) ++ [c] } : Idx).shrink s cap

/-- The DRAM address of the entry of a key's current version, while its page is in the cache. -/
def Idx.entryAddr (s : Store) (ks : Nat) (key : Bytes) (i : Idx) : Option Nat :=
  match i.spot s ks key with
  | (p, part, some off) => (i.frame? ks p.no part).map fun f => 16384 * f + off
  | _ => none

/-- The index page of the key is in the cache. -/
def Idx.pageIn (s : Store) (ks : Nat) (key : Bytes) (i : Idx) : Bool :=
  let x := i.spot s ks key
  (i.frame? ks x.1.no x.2.1).isSome

/-! CAM rows (R287, R288, R297, R304, R307, R308). -/

/-- The row that a search reports: the lowest tile first, then the lowest row (R297). -/
def Idx.camFind (ks fp : Nat) (i : Idx) : Option CamRow := i.cam.find? fun r => r.ks == ks && r.fp == fp && i.indexTile r.tile

/-- The row that a tile has free: in the group of the row's tag with the pre-filter, anywhere without it (R304). -/
def Idx.roomIn (i : Idx) (ks fp t : Nat) : Option Nat :=
  let x := i.tile t
  let used := (i.cam.filter fun r => r.tile == t).map (·.row)
  if x.pfEn then freeRow used (256 * field (camWord ks fp) x.pos 6) 256 else freeRow used 0 16384

/-- Writes an index row for a key (R288): it replaces the row `stale` that failed the comparison, else the lowest index tile with room
takes it; with no room, or past the cap of R307 in that tile, it is dropped. `now` is the life clock; 64 slots are 320 ns. The installs of
one period of 64 slots share update slots, each tile one row in each (R308). (log 122 DESIGN CHOICE) -/
def Idx.install (ks fp addr : Nat) (stale : Option CamRow) (now : Nat) (i : Idx) : Idx :=
  let recent := i.installs.filter fun x => decide (now < x.2 + 320)
  let place := (stale.map fun r => (r.tile, r.row)).or
    ((List.range 16).findSome? fun t => if i.indexTile t then (i.roomIn ks fp t).map fun r => (t, r) else none)
  match place with
  | none => i
  | some (t, row) =>
    let mine := fun (l : List (Nat × Nat)) (t : Nat) => (l.filter fun x => x.1 == t && x.2 / 320 == now / 320).length
    let slots := fun (l : List (Nat × Nat)) => ((List.range 16).map (mine l)).foldl max 0
    if i.updCap ≤ (recent.filter fun x => x.1 == t).length then { i with installs := recent }
    else
      ({ i with
          cam := insertBy (fun r => 16384 * r.tile + r.row) { tile := t, row := row, ks := ks, fp := fp, addr := addr }
            (i.cam.filter fun r => !(r.tile == t && r.row == row))
          installs := recent ++ [(t, now)] } : Idx).updates (slots (recent ++ [(t, now)]) - slots recent) i.indexTile

/-- Installs a row for a key that the cache holds and no row names. -/
def Idx.noteKey (s : Store) (ks : Nat) (key : Bytes) (now : Nat) (i : Idx) : Idx :=
  match i.entryAddr s ks key with
  | none => i
  | some a =>
    let r := i.camFind ks (s.fingerprint ks key)
    if r.any fun r => r.addr == a then i else i.install ks (s.fingerprint ks key) a r now

/-- One lookup of a key (R286-R288): the search; the row's entry, which is the key's current one or the row is stale; the page in the cache
or from flash; the row of a key that exists. `cap` is the size of the page cache. -/
def Idx.lookup (s : Store) (ks : Nat) (key : Bytes) (now cap : Nat) (i : Idx) : Idx :=
  let fp := s.fingerprint ks key
  let i := i.searchIndex ks fp
  let x := i.spot s ks key
  let hit := match i.camFind ks fp, i.entryAddr s ks key with
    | some r, some a => r.addr == a
    | _, _ => false
  if hit then ({ i with camHit := i.camHit + 1 } : Idx).usePage s ks x.1.no x.2.1 cap
  else
    let i : Idx :=
      if (i.frame? ks x.1.no x.2.1).isSome then { i with dramHit := i.dramHit + 1 } else { i with flashRd := i.flashRd + i.flashPages s ks cap }
    (i.usePage s ks x.1.no x.2.1 cap).noteKey s ks key now

/-- Pages in the chain of a bucket or leaf. -/
def Idx.parts (s : Store) (p : IdxPage) (i : Idx) : Nat := ((layout (i.entries s p) 0 0 0).map (·.1)).foldl max 0 + 1

/-- A bucket or leaf that a SCAN or SEARCH walks through, with the pages of its chain. -/
def Idx.walk (s : Store) (ks no cap : Nat) (i : Idx) : Idx :=
  let n := ((i.pagesOf ks).find? fun p => p.no == no).elim 1 fun p => i.parts s p
  (List.range n).foldl (fun i part =>
    ({ i with flashRd := if (i.frame? ks no part).isSome then i.flashRd else i.flashRd + 1 } : Idx).usePage s ks no part cap) i

/-- The buckets or leaves of a key space in index order, from `a` to `b`, or to the last one (R187, R188, R293). -/
def Idx.span (s : Store) (ks a : Nat) (b : Option Nat) (i : Idx) : List Nat :=
  let ordered := s.isOrdered ks
  let l := (sortLt (fun x y : IdxPage => if ordered then bytesLt x.key y.key else decide (x.fp < y.fp)) (i.pagesOf ks)).map (·.no)
  let l := l.dropWhile (· != a)
  match b with
  | none => l
  | some n => l.takeWhile (· != n) ++ l.filter (· == n)

/-! Commits (R285, R288, R292, R293). -/

/-- A page with too many entries splits. The new pages are in the cache. -/
def Idx.splitPage (s : Store) (p : IdxPage) (cap : Nat) (i : Idx) : Idx :=
  let es := i.entries s p
  let parts : List IdxPage :=
    if s.isOrdered p.ks then (splitLeaf es.length p.key es).map fun k => { p with key := k }
    else (splitRange es p.bits p.fp).map fun x => { p with fp := x.1, bits := x.2 }
  if parts.length ≤ 1 then i
  else
    let named := (numbered parts).map fun x => { x.2 with no := if x.1 = 0 then p.no else i.pageSeq + x.1, dirty := true }
    let i : Idx := { i with pages := i.pages.filter (fun x => !(x.ks == p.ks && x.no == p.no)) ++ named, pageSeq := i.pageSeq + parts.length }
    named.foldl (fun i x => i.usePage s p.ks x.no 0 cap) i

/-- An entry of a page changes: the page, in the cache, is newer than its flash copy. -/
def Idx.touch (s : Store) (ks : Nat) (key : Bytes) (cap : Nat) (i : Idx) : Idx :=
  let x := i.spot s ks key
  let p := { x.1 with dirty := true }
  (({ i with pages := i.pages.filter (fun y => !(y.ks == ks && y.no == p.no)) ++ [p] } : Idx).usePage s ks p.no x.2.1 cap).splitPage s p cap

/-- A read of the media begins (R328, R329). (log 123 DESIGN CHOICE) -/
def Idx.readMedia (now : Nat) (i : Idx) : Idx := { i with rbAt := now, rbEnd := now + 1200000000000 + Config.rebuildRead now }

/-- The rebuild of a key space is over: the next one has a read of the media of its own, but within a full rebuild (R328, R329). -/
def Idx.unbuild (ks now : Nat) (i : Idx) : Idx :=
  let on := i.rebuild.head? == some ks && !(i.full.contains ks && (i.full.any (· != ks)))
  let i := { i with rebuild := i.rebuild.filter (· != ks), full := i.full.filter (· != ks), lost := i.lost.filter fun l => l.1 != ks }
  if on then i.readMedia now else i

/-- The index of a key space goes with it. -/
def Idx.dropKs (ks now : Nat) (i : Idx) : Idx :=
  let i := i.invalidate fun r => r.ks == ks
  ({ i with pages := i.pages.filter (·.ks != ks), cached := i.cached.filter (·.ks != ks) } : Idx).unbuild ks now

/-- The buckets or leaves of a key space are laid out anew from its records (R292, R293, R328). -/
def Idx.relay (s : Store) (ks cap : Nat) (i : Idx) : Idx :=
  ({ i with pages := i.pages.filter (·.ks != ks), cached := i.cached.filter (·.ks != ks) } : Idx).splitPage s (.root ks) cap

/-! The DRAM value cache (R32, R35, R37). -/

/-- Bytes that the value cache has: the rest of the shared area, 8 GiB once a channel is retired. -/
def Drive.valueCap (d : Drive) : Nat := if d.dmc.retired = 0 then d.sharedArea - 16384 * d.cachedPages else 8 * 2 ^ 30

/-- Drops the values that have been longest unused until the others fit. -/
def trimVals (cap : Nat) : List (Nat × Nat) → List (Nat × Nat)
  | [] => []
  | v :: vs => if sumBy (·.2) (v :: vs) ≤ cap then v :: vs else trimVals cap vs

/-- The pages of `i` whose copies in flash `j` has brought up to date. -/
def Idx.written (i j : Idx) : List (Nat × Nat) :=
  (i.pages.filter fun p => p.dirty && j.pages.any fun q => q.ks == p.ks && q.no == p.no && !q.dirty).map fun p => (p.ks, p.no)

/-- `n` bytes of a kind that is no value are programmed, enciphered under the metadata key: `num` and `ks` are the record ID and key-space
fields of their tweaks (R468, R469). (log 163 DESIGN CHOICE) -/
def Drive.program (kind num ks n : Nat) (d : Drive) : Drive :=
  let ct := d.kvx.store.sealMeta (9 + kind) num ks (padTo n (Config.asideBytes kind num d.clk.life))
  d.onMed fun m => { m.asideWrite kind n with asideUnits := m.asideUnits.filter (·.1 != (kind, num, ks)) ++ [((kind, num, ks), ct)] }

/-- A change of the index: pages written back are programmed into the index region (R38, R285, R334), and the value cache keeps to what the
index leaves. -/
def Drive.index (f : Idx → Idx) (d : Drive) : Drive :=
  let d := (d.idx.written (f d.idx)).foldl (fun d p => d.program 0 p.2 p.1 16384) (d.onIdx f)
  d.onDmc fun m => { m with vals := trimVals d.valueCap m.vals }

/-- Lines of 64 bytes. -/
def linesOf (n : Nat) : Nat := (n + 63) / 64

/-- The first line of a record's bytes in a region of the DRAM. -/
def recLine (recId : Nat) : Nat := 2 ^ 26 * recId

/-- A value has been read whole from flash: the cache takes it or not. -/
def Drive.keepValue (v : Option (Nat × Nat)) (d : Drive) : Drive :=
  match v with
  | none => d
  | some v =>
    let kept := Config.valueKept v.1 d.clk.life
    (d.dram useValueFill (recLine v.1) (if kept then linesOf v.2 else 0)).onDmc fun m =>
      { m with vals := if kept then trimVals d.valueCap (m.vals.filter (·.1 != v.1) ++ [v]) else m.vals }

/-- A cached value is used. -/
def Drive.useValue (v : Option (Nat × Nat)) (d : Drive) : Drive :=
  match v with
  | none => d
  | some v => (d.dram useValueRead (recLine v.1) (linesOf v.2)).onDmc fun m =>
    if m.vals.contains v then { m with vals := m.vals.filter (· != v) ++ [v] } else m

/-- What a commit does to the index; `s` is the stored state after it. -/
def Idx.commit (s : Store) (now cap : Nat) (i : Idx) : Effect → Idx
  | .putRec r => (i.touch s r.ks r.key cap).noteKey s r.ks r.key now
  | .delRec ks key => i.touch s ks key cap
  | .ksDelete ks => i.dropKs ks now
  | .move l => (s.recs.filter fun r => l.any fun x => x.1 == r.recId).foldl (fun i r => i.touch s r.ks r.key cap) i
  | _ => i

/-- The index after a commit with effects `es`. -/
def Drive.indexCommit (es : List Effect) (d : Drive) : Drive :=
  d.index fun i => es.foldl (fun i e => i.commit d.kvx.store d.clk.life d.cacheCap e) i

/-- The lookup of a key at a turn: the entry of the CAM row, or the probe of the page, is read from DRAM; a page from flash is copied
there. -/
def Drive.lookup (ks : Nat) (key : Bytes) (d : Drive) : Drive :=
  let e := d.index fun i => i.lookup d.kvx.store ks key d.clk.life d.cacheCap
  let x := e.idx.spot d.kvx.store ks key
  let line := 256 * (e.idx.frame? ks x.1.no x.2.1).getD 0
  let e := e.dram useProbe (if e.idx.camHit = d.idx.camHit then line else line + x.2.2.getD 0 / 64) 1
  e.dram usePageCopy line (if e.idx.flashRd = d.idx.flashRd then 0 else 256)

/-! Rebuilds (R327). -/

/-- A command that needs index page `no` of a key space finds it lost, or the whole index in rebuild: `UNRECOVERABLE` with the page's
locator, or all ones. -/
def Drive.pageFault (ks no : Nat) (d : Drive) : Option Res :=
  if d.idx.full.contains ks then some (.failed stUnrecoverable 9 (fill 6 0xFF))
  else (d.idx.lost.find? fun l => l.1 == ks && l.2.1 == no).map fun l => .failed stUnrecoverable 9 (leBytes 6 l.2.2)

/-- The number of the index page of a key. -/
def Drive.indexPage (ks : Nat) (key : Bytes) (d : Drive) : Nat := (d.idx.spot d.kvx.store ks key).1.no

/-- The same for the page of a key. -/
def Drive.indexLost (ks : Nat) (key : Bytes) (d : Drive) : Option Res := d.pageFault ks (d.indexPage ks key)

end Sys2Proof.Machine
end

