-- ==== Sys2Proof/Machine/Descriptor.lean ====
section
/-! DEFINITION. Key-space descriptors and access lists as KSCREATE and KSMODIFY send them, with their checks (R46-R48, R78, R79, R165). -/

namespace Sys2Proof.Machine

/-- The fault of a descriptor or access list that came from host memory. -/
def descriptorBad : Res := .badField 8 0xFFFF

/-- The access list that follows a descriptor, none when an entry breaks R78. -/
def parseAcl (b : Bytes) : Option (List AclEntry) :=
  let es := (List.range (b.length / 8)).map fun i => slice b (8 * i) 8
  let ids := es.map fun e => le e 0 4
  let ok := fun (e : Bytes) => le e 0 4 != 0 && le e 0 4 != 0xFFFFFFFF && decide (byteAt e 4 < 8) && le e 5 3 == 0
  if es.all ok && decide ids.Nodup then some (es.map fun e => { tenant := le e 0 4, rights := byteAt e 4 }) else none

/-- A descriptor with its access list (R46, R47, R165): the key space that it describes and its modify mask. -/
def parseDescriptor (id : Nat) (create : Bool) (b : Bytes) : Option (KeySpace × Nat) :=
  let n := le b 0x18 2
  let mask := byteAt b 5
  let slot := le b 6 2
  let ok := decide (128 ≤ b.length) && b.length == 128 + 8 * n && le b 0 2 == id && decide (byteAt b 2 ≤ 1) && decide (byteAt b 3 ≤ 1)
    && decide (byteAt b 4 ≤ 1) && decide (mask < 32) && !(create && mask != 0) && (decide (slot ≤ 0x1FFF) || slot == 0xFFFF)
    && decide (n ≤ 256) && le b 0x1A 6 == 0
  match parseAcl (b.drop 128) with
  | none => none
  | some acl =>
    if ok then
      some
        ({ id := id, index := if byteAt b 2 = 0 then .hashed else .ordered, vclass := if byteAt b 3 = 0 then .mutable else .anchored
           retention := if byteAt b 4 = 0 then .standard else .archive, slot := slot, byteQuota := le b 8 8, keyQuota := le b 0x10 8
           acl := acl, label := slice b 0x20 32, hwm := 0, serial := 0, mediaKey := none, wrapped := [], xts128 := false }, mask)
    else none

/-- A list with the creator's entry (R79): its own entry replaced, else one more. -/
def withCreator (tenant : Nat) (acl : List AclEntry) : List AclEntry :=
  if acl.any fun a => a.tenant == tenant then updFirst (fun a => a.tenant == tenant) (fun a => { a with rights := 7 }) acl
  else acl ++ [{ tenant := tenant, rights := 7 }]

/-- The slot holds no cipher key (R76), found at a stage. -/
def slotMissing (stage slot : Nat) : Res := .failed stKeyMissing stage (leBytes 2 slot)

/-- The cipher key of a slot; 0xFFFF names the drive-generated one. -/
def Store.slotKey (slot : Nat) (s : Store) : Option Bytes :=
  if slot = 0xFFFF then (if s.driveKey.isEmpty then none else some s.driveKey) else (s.slots.find? fun x => x.slot == slot).map (·.key)

/-- The first attribute in which a descriptor differs from its key space (R48). -/
def KeySpace.differs (old new : KeySpace) : Option Nat :=
  if old.index ≠ new.index then some 2 else if old.vclass ≠ new.vclass then some 3 else if old.retention ≠ new.retention then some 4 else none

/-- The checks of the descriptor that a KSCREATE or KSMODIFY has sent, made as soon as it is here: its form at stage 8, then the attributes
that it must repeat at stage 6 and the slots that must hold a key at stage 7 (R48, R76, R165, R667). (log 20 DEDUCED) -/
def Store.descriptorFault (c : Ctx) (s : Store) : Option Res :=
  let lacks := fun (slot : Nat) => if (s.slotKey slot).isNone then some (slotMissing 7 slot) else none
  if c.op = 0x40 then
    match parseDescriptor c.e.ksId true (c.value 0) with
    | none => some descriptorBad
    | some (k, _) => if (withCreator c.tenant k.acl).length > 256 then some descriptorBad else lacks k.slot
  else if c.op = 0x42 then
    match parseDescriptor c.e.ksId false (c.value 0), s.ks? c.e.ksId with
    | none, _ => some descriptorBad
    | _, none => none
    | some (new, mask), some old =>
      match old.differs new with
      | some off => some (.conflict 6 3 off)
      | none => if bit mask 0 then (if old.mediaKey.isNone then some (slotMissing 7 old.slot) else lacks new.slot) else none
  else none

end Sys2Proof.Machine
end

