-- ==== Sys2Proof/Machine/Pipeline.lean ====
section
/-! DEFINITION. The way of a command up to its turn: fetch, arrival, start, the reads of its data, staging; and the commit
rule (R122-R126, R139, R219, R223-R226, R234-R241). -/

namespace Sys2Proof.Machine

/-! Order between commands. -/

/-- Connection order (R218). -/
def Ctx.before (x y : Ctx) : Bool := if x.sq == y.sq then decide (x.ord < y.ord) else decide (x.avail < y.avail)

/-- Two commands share a key (R223); one whose keys are not yet known shares with every other (R224). -/
def KeySet.meets (a b : KeySet) : Bool :=
  match a, b with
  | .unknown, _ => true
  | _, .unknown => true
  | .none, _ => false
  | _, .none => false
  | .keys x, .keys y => x.any fun k => y.contains k
  | .keys x, .spaces y => x.any fun k => y.contains k.1
  | .spaces x, .keys y => y.any fun k => x.contains k.1
  | .spaces x, .spaces y => x.any fun k => y.contains k

/-- Rights of a tenant on a key space as bits READ, WRITE, ADMIN (R78). -/
def KeySpace.rights (tenant : Nat) (k : KeySpace) : Nat :=
  match k.acl.find? fun a => a.tenant == tenant with
  | some a => a.rights
  | none => 0

/-- Key spaces that a tenant may read. -/
def Store.readable (tenant : Nat) (s : Store) : List Nat := (s.kss.filter fun k => bit (k.rights tenant) 0).map (·.id)

/-- The key of a command as far as the drive knows it: one held by descriptor is unknown until it has been read (R224). -/
def Ctx.knownKey (c : Ctx) : Option Bytes :=
  match c.key with
  | some k => some k
  | none => if c.e.klen ≤ 48 then some (slice c.e.key 0 c.e.klen) else none

/-- The keys a command touches (R223), whether or not it has failed a check. -/
def Ctx.keySet (s : Store) (c : Ctx) : KeySet :=
  if !c.arrived then .unknown
  else if [0x01, 0x02, 0x03, 0x04, 0x05, 0x06, 0x07, 0x13].contains c.op then
    match c.knownKey with
    | some k => .keys [(c.e.ksId, k)]
    | none => .unknown
  else if c.op == 0x10 then
    match c.ops with
    | some os => .keys (os.map fun o => (o.ks, o.key))
    | none => .unknown
  else if [0x08, 0x11, 0x12].contains c.op then .spaces [c.e.ksId]
  else if c.op == 0x16 then .spaces (if c.e.flag 4 then s.readable c.tenant else [c.e.ksId])
  else .none

/-- Commands of the same domain before a command (R217). -/
def Drive.earlier (c : Ctx) (d : Drive) : List Ctx := d.kvx.ctxs.filter fun p => p.sq == c.sq && decide (p.ord < c.ord)

/-- The commit rule (R225, R226). -/
def Drive.turnAllowed (c : Ctx) (d : Drive) : Bool :=
  c.arrived && c.started && c.wait == .none && !c.turned && !c.settled && !c.discarded && c.marked.isNone
    && c.reads.isEmpty &&
    (match d.sq? c.sq with
     | none => false
     | some s =>
       if s.strict then (d.earlier c).all (·.settled)
       else (d.earlier c).all fun p => p.turned || !(p.keySet d.kvx.store).meets (c.keySet d.kvx.store))

/-- The connection is ending (R131). -/
def Drive.isClosing (c : Nat) (d : Drive) : Bool :=
  match d.conn? c with
  | some x => x.state == .closing
  | none => true

/-- The CQ of an SQ is faulted and holds its completions (R126). -/
def Drive.cqHeld (q : Nat) (d : Drive) : Bool :=
  match d.sq? q with
  | none => true
  | some s => match d.cq? s.cq with
    | none => true
    | some x => x.faulted

/-! Fetching (R122-R125, R235, R236). -/

/-- Outstanding commands of an SQ (R123). -/
def Drive.outstanding (q : Nat) (d : Drive) : Nat := (d.kvx.ctxs.filter fun c => c.sq == q).length

/-- Contexts in all (R34). -/
def ctxTotal : Nat := 65536

/-- Contexts that every entry may take: all but the 256 kept for admin SQs and the 1,024 kept for catch-up fetches (R124, R236). -/
def ctxShared : Nat := ctxTotal - 256 - 1024

/-- A context is free for an entry (R124, R236). Each reserve stands apart: entries of data SQs never take those of admin SQs, nor ordinary
fetches those of catch-ups, and each kind is placed in the shared contexts or in its own reserve. -/
def Drive.ctxFree (admin catchUp : Bool) (d : Drive) : Bool :=
  let isAdmin := fun (c : Ctx) => (d.sq? c.sq).any (·.admin)
  let held := fun (p : Ctx → Bool) (own : Bool) => (d.kvx.ctxs.filter p).length + (if own then 1 else 0)
  decide (held (fun c => !c.catchUp && !isAdmin c) (!catchUp && !admin) ≤ ctxShared) &&
    decide (held (fun c => !c.catchUp) (!catchUp) ≤ ctxShared + 256) &&
    decide (held (fun c => !isAdmin c) (!admin) ≤ ctxShared + 1024) && decide (d.kvx.ctxs.length < ctxTotal)

/-- When the entry at absolute position `a` was made available (R218). -/
def Sq.availOf (s : Sq) (a : Nat) : Nat :=
  match s.segs.find? fun g => decide (a < g.1) with
  | some g => g.2
  | none => 0

/-- The drive parks: fetching has stopped on every SQ (R530). -/
def Pwr.parking (p : Pwr) : Bool :=
  match p.change with
  | some ch => ch.target == 8
  | none => false

/-- Nothing more is fetched from the SQs of a connection: it is ending, the drive parks, or the mode serves no host (R131, R530). -/
def Drive.fetchStops (conn : Nat) (d : Drive) : Bool := d.isClosing conn || !d.pwr.serving || d.pwr.parking

/-- The SQ holds an unfetched entry that precedes `c` in connection order and is not past fetching (R235, R240). -/
def Drive.unfetched (s : Sq) (c : Ctx) (d : Drive) : Bool :=
  s.id != c.sq && s.freeze.isNone && !s.faulted && !s.closing && !d.fetchStops s.conn &&
    decide (s.fetched < s.tail) && decide (s.availOf s.fetched < c.avail)

/-- The SQ holds an entry that precedes `c` in connection order and is not yet in its context: unfetched, or its READ not answered. -/
def Drive.ahead (s : Sq) (c : Ctx) (d : Drive) : Bool :=
  d.unfetched s c || d.kvx.ctxs.any fun x => x.sq == s.id && !x.arrived && x.before c

/-- A domino on the SQ, or a BARRIER, waits for a catch-up fetch from the SQ (R235, R240). -/
def Drive.catchUpDue (s : Sq) (d : Drive) : Bool :=
  d.kvx.ctxs.any fun c => c.conn == s.conn && c.arrived && !c.settled && c.fail.isNone &&
    (c.op == 0x19 || (c.wait == .catchUp && c.e.domTag.toNat != 0xFFFF && c.e.domSq.toNat == s.id)) && d.unfetched s c

/-- The conditions of R118, R122, R235, R261 and R265 for the next entry, but for credits and contexts. -/
def Drive.mayFetch (s : Sq) (d : Drive) : Bool :=
  let frozenOk := match s.freeze with
    | none => true
    | some f => s.admin && f.recSeq.isSome && (d.kvx.ctxs.filter fun c => c.sq == s.id && !c.cqe).isEmpty
  let roomOk := match d.cq? s.cq with
    | some q => d.cqRoom q
    | none => false
  decide (s.fetched < s.tail) && !s.faulted && !s.closing && frozenOk && roomOk && !d.fetchStops s.conn

/-- No other catch-up fetch that could go on takes an entry earlier in connection order (R236). -/
def Drive.firstCatchUp (s : Sq) (d : Drive) : Bool :=
  d.hq.sqs.all fun t => !d.catchUpDue t || !d.mayFetch t || decide (s.availOf s.fetched ≤ t.availOf t.fetched)

/-- Why the next entry of an SQ cannot be fetched now, or that it can. -/
inductive Fetch where
  | ok | noContext | no
  deriving DecidableEq, Repr

/-- The conditions of R118, R122-R124, R235, R236, R261 and R265 for the next entry: a catch-up fetch takes no heed of credits, and the
reserved contexts go to the earliest catch-up. -/
def Drive.fetchable (s : Sq) (catchUp : Bool) (d : Drive) : Fetch :=
  let limit := if s.limit = 0 then s.depth - 1 else s.limit
  if !d.mayFetch s then .no
  else if !catchUp && (decide (d.outstanding s.id ≥ limit) || s.roundCredit == 0) then .no
  else if d.ctxFree s.admin false then .ok
  else if !catchUp || !d.ctxFree s.admin true then .noContext
  else if d.firstCatchUp s then .ok else .no

/-- The SQ whose turn it is: in ascending ID from the one that fetched last in the round, the first that may fetch (R122).
(log 105 DESIGN CHOICE) -/
def Drive.turnSq? (d : Drive) : Option Sq := d.hq.sqs.find? fun s => decide (d.hq.turn ≤ s.id) && d.fetchable s false == .ok

/-- Every SQ that could still fetch in this round has taken its turn, so that a new round begins (R122). -/
def Drive.roundOver (d : Drive) : Bool := d.turnSq?.isNone

/-- A new round: fresh shares, the first SQ again, weights and credit limits as they now are (R122). -/
def Drive.newRound (d : Drive) : Drive :=
  d.onHq fun h =>
    { h with turn := 0, sqs := h.sqs.map fun s => { s with roundCredit := if s.admin then 255 else s.weight, limit := s.credit } }

/-- A catch-up fetch is due and possible: it comes ahead of the rounds (R235). -/
def Drive.catchUpReady (d : Drive) : Bool := d.hq.sqs.any fun s => d.catchUpDue s && d.fetchable s true == .ok

/-- Takes a context for the next entry of SQ `q` (R125), of the SQ's share of the round too when the fetch catches up.
(log 106 DESIGN CHOICE) -/
def Drive.takeEntry (q : Nat) (catchUp : Bool) (d : Drive) : Drive :=
  match d.sq? q with
  | none => d
  | some s =>
    let tenant := match d.conn? s.conn with
      | some x => x.tenant
      | none => 0
    let c : Ctx := { sq := q, ord := d.kvx.fetchSeq, abs := s.fetched, conn := s.conn, tenant := tenant
                     avail := s.availOf s.fetched, late := s.freeze.isSome, catchUp := catchUp }
    let n := d.kvx.ctxs.length + 1
    (((d.onKvx fun k => { k with ctxs := k.ctxs ++ [c], fetchSeq := k.fetchSeq + 1 }).onSq q
      fun s => { s with fetched := s.fetched + 1, roundCredit := s.roundCredit - 1 }).onHq
      fun h => { h with hwm := max h.hwm n }).onPwr fun p => { p with idleAt := d.clk.life }

/-- Takes up to `n` entries, never past the last entry of the ring; answers how many. -/
def Drive.takeEntries (q : Nat) (catchUp : Bool) : Nat → Drive → Nat × Drive
  | 0, d => (0, d)
  | n + 1, d =>
    match d.sq? q with
    | none => (0, d)
    | some s =>
      if catchUp && !d.catchUpDue s then (0, d)
      else
        match d.fetchable s catchUp with
        | .no => (0, d)
        | .noContext => (0, d)
        | .ok =>
          let d' := d.takeEntry q catchUp
          if (s.fetched + 1) % s.depth = 0 ∨ s.freeze.isSome then (1, d')
          else let r := Drive.takeEntries q catchUp n d'; (r.1 + 1, r.2)

/-- The context table is full and an entry waits (R124, R132): it counts as having become full at the first fetch that finds no context.
(log 107 DESIGN CHOICE) -/
def Drive.ctxFull (d : Drive) : Drive :=
  let d := if d.hq.fullAt.isNone then d.onHq fun h => { h with fullCnt := wrap32 (h.fullCnt + 1), fullAt := some d.clk.life }
    else d
  d.raise srcCtxFull (leBytes 4 d.kvx.ctxs.length)

/-- RDMA READs a connection has outstanding. -/
def Conn.readsOut (x : Conn) : Nat :=
  (x.unacked.filter fun r => match r.kind with
    | .read _ => true
    | _ => false).length

/-- The connection may have one more RDMA READ outstanding (R90). -/
def Drive.readFree (c : Nat) (d : Drive) : Bool :=
  match d.conn? c with
  | none => false
  | some x => decide (x.readsOut < min 16 x.resources)

/-- Issues the RDMA READ of up to `n` entries of SQ `q` (R122, R125, R235): in the SQ's turn of the round, while no catch-up fetch comes
first, or as a catch-up fetch. -/
def Drive.fetchIssue (q n : Nat) (catchUp : Bool) (d : Drive) : Drive :=
  match d.sq? q with
  | none => d
  | some s0 =>
    if (if catchUp then !d.catchUpDue s0 else d.catchUpReady) || !d.readFree s0.conn then d
    else
      let d := if !catchUp && d.roundOver then d.newRound else d
      match d.sq? q with
      | none => d
      | some s =>
        if d.fetchable s catchUp == .noContext then d.ctxFull
        else if !catchUp && d.turnSq?.map (·.id) != some q then d
        else
          let first := d.kvx.fetchSeq
          let r := d.takeEntries q catchUp (min n 32)
          if r.1 = 0 then d
          else
            let d := if catchUp then r.2 else r.2.onHq fun h => { h with turn := q }
            d.send s.conn (.read (128 * r.1)) (.sqe q ((List.range r.1).map (first + ·)))
              (s.addr + 128 * (s.fetched % s.depth)) s.rkey []

/-! The data of a command: RDMA READs of keys, lists and values (R112, R113, R227). -/

/-- The command still works for its result: nothing has stopped or ended it. -/
def Ctx.alive (c : Ctx) : Bool := !c.discarded && c.marked.isNone && !c.settled

/-- Issues the first read of the connection that waits (R90). -/
def Drive.issueOne (c : Nat) (d : Drive) : Drive :=
  if !d.readFree c then d
  else
    match d.kvx.ctxs.find? fun t => t.conn == c && t.alive && t.reads.any fun r => !r.issued with
    | none => d
    | some t =>
      match t.reads.find? fun r => !r.issued with
      | none => d
      | some r =>
        (d.onCtx t.sq t.ord fun y => { y with reads := updFirst (fun r => !r.issued) (fun r => { r with issued := true }) y.reads }).send
          c (.read r.len) (.data t.sq t.ord) r.addr r.rkey []

/-- The queue pair of a connection is lost: no request on it is answered any more. -/
def Drive.isDead (c : Nat) (d : Drive) : Bool :=
  match d.conn? c with
  | some x => x.dead
  | none => true

/-- Issues as many waiting reads as the connection's limit lets go (R90). Where no read is answered any more, the commands that need one
fail. -/
def Drive.pump (c : Nat) (d : Drive) : Drive :=
  if d.isDead c then
    d.onKvx fun k => { k with ctxs := k.ctxs.map fun y =>
      if y.conn == c && !y.reads.isEmpty then { y with reads := [], fail := some (y.fail.getD (.failed stRemote 8)) } else y }
  else (List.range 16).foldl (fun d _ => d.issueOne c) d

/-- Bytes stored for a value of `n` bytes: a last unit below 16 bytes is padded (R470). -/
def storedLen (n : Nat) : Nat := if 0 < n % 4096 ∧ n % 4096 < 16 then n - n % 4096 + 16 else n

/-- The records of a pack that are carried into the next one when it closes: those not committed (R661). -/
def Kvx.uncommitted (k : Kvx) (id : Nat) : Bool := k.staged.any fun s => s.recId == id && s.serial.isNone

def Kvx.packSize (k : Kvx) (id : Nat) : Nat :=
  match k.staged.find? fun s => s.recId == id with
  | some s => s.keyLen + storedLen s.len + Config.packOverhead id % 129
  | none => 0

/-- A pack that has just opened with records. -/
def Kvx.newPack (now : Nat) (recs : List Nat) (k : Kvx) : Pack := { id := k.packSeq, recs := recs, used := sumBy k.packSize recs, since := now }

/-- The pack that is open closes: its committed records are handed to programming, the others open the next pack (R660, R661). -/
def Kvx.shutPack (now : Nat) (k : Kvx) : Kvx :=
  match k.pack with
  | none => k
  | some p =>
    let carry := p.recs.filter k.uncommitted
    let done := p.recs.filter fun r => !k.uncommitted r
    { k with
      pack := if carry.isEmpty then none else some (k.newPack now carry)
      packSeq := if carry.isEmpty then k.packSeq else k.packSeq + 1
      packs := if done.isEmpty then k.packs else k.packs ++ [{ p with recs := done }] }

/-- What the placing of a record changes: the packs. The size of a record is an open value, so that the choice stands inside the fields. -/
def Kvx.withPacks (r k : Kvx) : Kvx := { k with pack := r.pack, packs := r.packs, packSeq := r.packSeq, packWait := r.packWait }

/-- Places a record in the open pack, or in a new one when none is open; a record that does not fit waits for room. -/
def Kvx.tryPlace (now : Nat) (k : Kvx) (id : Nat) : Kvx :=
  let n := k.packSize id
  match k.pack with
  | none => { k with pack := some (k.newPack now [id]), packSeq := k.packSeq + 1 }
  | some p =>
    k.withPacks (if p.used + n ≤ 16384 then { k with pack := some { p with recs := p.recs ++ [id], used := p.used + n } }
      else { k with packWait := k.packWait ++ [id] })

/-- The records that wait for room are placed, first come first, as far as they fit. -/
def Kvx.placeWaiting (now : Nat) (k : Kvx) : Kvx := k.packWait.foldl (Kvx.tryPlace now) { k with packWait := [] }

/-- Places a record in the open pack, which closes first when the record does not fit (R660). A record that does not fit beside those
carried over waits until one of them has left, behind those that wait already. (log 125 DESIGN CHOICE) -/
def Kvx.place (now : Nat) (k : Kvx) (id : Nat) : Kvx :=
  match k.pack with
  | none => k.tryPlace now id
  | some p => k.withPacks (if p.used + k.packSize id ≤ 16384 then k.tryPlace now id else ((k.shutPack now).placeWaiting now).tryPlace now id)

/-- The open pack closes, and records that waited for room are placed. -/
def Kvx.closePack (now : Nat) (k : Kvx) : Kvx := if k.packWait.isEmpty then k.shutPack now else (k.shutPack now).placeWaiting now

/-- The chunks of a value of `len` bytes, none programmed; one below 4 KiB has chunk 0 alone. -/
def chunksOf (len : Nat) : List (Nat × Nat) :=
  if len < 4096 then [(0, 0)] else (List.range ((len + 65535) / 65536)).map fun i => (i, 0)

/-- Stages one value of a command (R27 step 7, R391): a large one as chunks handed to programming, a small one in a pack. -/
def Kvx.stage (now mode : Nat) (k : Kvx) (c : Ctx) (op ks keyLen len : Nat) : Kvx :=
  let id := k.recCount + 1
  let k := { k with
    recCount := id
    staged := k.staged ++ [{ recId := id, sq := c.sq, ord := c.ord, op := op, ks := ks, keyLen := keyLen, len := len
                             chunks := chunksOf len, serial := none, mode := mode }] }
  if len < 4096 then k.place now id else k


/-- Stages one value: its bytes go to DRAM too (R25, R35, R494). Its route is that of the mode in which its first chunk was complete
(R357). -/
def Drive.stage (c : Ctx) (op ks keyLen len : Nat) (d : Drive) : Drive :=
  (d.onKvx fun k => k.stage d.clk.life (lookupD c.routes op d.pwr.cur) c op ks keyLen len).dram useStaging (2 ^ 26 * (d.kvx.recCount + 1)) ((len + 63) / 64)

/-- The staged values of a command. -/
def Kvx.stagedOf (k : Kvx) (q ord : Nat) : List Staged := k.staged.filter fun s => s.sq == q && s.ord == ord && s.serial.isNone

/-- Stages every value that the command would store, once its data has arrived; one that still lies staged stays. (log 34 DEDUCED) -/
def Drive.stageAll (c : Ctx) (d : Drive) : Drive :=
  let has := fun (i : Nat) => (d.kvx.stagedOf c.sq c.ord).any fun s => s.op == i
  if [0x02, 0x06, 0x07].contains c.op then
    if has 0 then d else d.stage c 0 c.e.ksId c.e.klen c.e.vlen
  else
    match c.ops with
    | some os =>
      (numbered os).foldl (fun d x =>
        if [2, 6, 7].contains x.2.opcode && !has x.1 then d.stage c x.1 x.2.ks x.2.key.length x.2.valLen else d) d
    | none => d

/-- Records leave the open pack: it keeps its others, and those that waited for room in it are placed. -/
def Kvx.unpack (gone : List Nat) (now : Nat) (k : Kvx) : Kvx :=
  let k := { k with
    packWait := k.packWait.filter fun r => !gone.contains r
    pack := match k.pack with
      | some p =>
        let rest := p.recs.filter fun r => !gone.contains r
        if rest.isEmpty then none else some { p with recs := rest, used := sumBy k.packSize rest }
      | none => none }
  if k.packWait.isEmpty then k else k.placeWaiting now

/-- Staged values leave. -/
def Kvx.dropStaged (gone : List Nat) (now : Nat) (k : Kvx) : Kvx :=
  ({ k with staged := k.staged.filter fun s => !(gone.contains s.recId) } : Kvx).unpack gone now

/-- The value of an APPEND at its turn is the old value followed by the appended bytes: staging holds all of it (R160, R391, R660). -/
def Kvx.grow (now : Nat) (k : Kvx) (x : Nat × Nat) : Kvx :=
  if k.staged.any (fun s => s.recId == x.1 && s.len != x.2) then
    let k : Kvx := { k with staged := k.staged.map fun (s : Staged) => if s.recId == x.1 then ({ s with len := x.2, chunks := chunksOf x.2 } : Staged) else s }
    let k := k.unpack [x.1] now
    if x.2 < 4096 then k.place now x.1 else k
  else k

/-- Staging takes the whole values of APPENDs: record IDs and lengths. -/
def Drive.grow (l : List (Nat × Nat)) (d : Drive) : Drive :=
  l.foldl (fun d x => if d.kvx.staged.any (fun s => s.recId == x.1 && s.len != x.2) then
      (d.onKvx fun k => k.grow d.clk.life x).dram useStaging (2 ^ 26 * x.1) ((x.2 + 63) / 64)
    else d) d

/-- Removes what an ended command had staged (R251, R661). -/
def Drive.unstage (q ord : Nat) (d : Drive) : Drive :=
  d.onKvx fun k => k.dropStaged ((k.stagedOf q ord).map (·.recId)) d.clk.life

/-- The operation of a BATCH whose value a read fetches. -/
def ReadFor.operation : ReadFor → Option Nat
  | .list i => some i
  | .value i => some i
  | _ => none

/-- The read belongs to an operation of a BATCH that stands before the one that failed: its outcome may still decide the status (R181). -/
def Res.undecided (f : Res) (r : ReadReq) : Bool :=
  match f.idx, r.what.operation with
  | some i, some j => decide (j < i)
  | _, _ => false

/-- Of two failures the one that decides: the first, unless the later one is that of an operation earlier in the list (R181, R186). -/
def Res.first (old new : Res) : Res :=
  match old.idx, new.idx with
  | some i, some j => if j < i then new else old
  | _, _ => old

/-- The command fails a check: the failure is kept until its turn; reads not yet issued are dropped, but for those that may still decide. -/
def Drive.failCtx (q ord : Nat) (r : Res) (d : Drive) : Drive :=
  d.onCtx q ord fun c =>
    let f := match c.fail with
      | some x => x.first r
      | none => r
    { c with fail := some f, reads := c.reads.filter fun x => x.issued || (c.op == 0x10 && f.undecided x) }

/-! Entry into the ordering domain: stages 3 to 8 (R139, R219). -/

/-- What stage 3 and 5 decide about a command. -/
inductive Go where
  | start | wait (w : Wait) | fail (r : Res)
  deriving DecidableEq, Repr

/-- A BARRIER that precedes the command holds it (R241), unless it has failed a check and so has no effect. (log 108 DEDUCED) -/
def Drive.barrierAhead (c : Ctx) (d : Drive) : Bool :=
  d.kvx.ctxs.any fun b => b.op == 0x19 && b.arrived && b.fail.isNone && b.conn == c.conn && b.before c && !b.cqe
    && !(b.settled && (b.marked.isSome || d.isClosing b.conn || d.cqHeld b.sq))

/-- The result of a dependent whose predecessor failed (R136). -/
def dependencyRes (x : Done) (q : Nat) : Res :=
  .failed stDependency (if x.disc then 0x0D else 3) (leBytes 2 x.status ++ leBytes 2 q ++ leBytes 2 x.tag)

/-- What the CQE of a predecessor on SQ `q` does to its dependent (R237). -/
def Done.go (q : Nat) (r : Done) : Go := if goodStatus r.status then .start else .fail (dependencyRes r q)

/-- What the CQE of a command tells those that wait for it. -/
def Ctx.outcome (c : Ctx) : Done := { tag := c.e.tag.toNat, status := c.res.status, avail := c.avail, ord := c.ord, disc := c.discarded }

/-- The CQE of a settled command is written, or never will be (R126, R131, R262). -/
def Drive.cqeDone (c : Ctx) (d : Drive) : Bool := c.cqe || (c.settled && (d.isClosing c.conn || d.cqHeld c.sq))

/-- The domino of a command (R108, R234, R235, R237): the CQE it has waited for, else the search for its predecessor. A predecessor whose
CQE will never be written counts from its settling on. (log 140 DEDUCED) -/
def Drive.domino (c : Ctx) (d : Drive) : Go :=
  let tag := c.e.domTag.toNat
  let q := c.e.domSq.toNat
  if tag = 0xFFFF then .start
  else if c.pred.isSome then (c.pred.map (·.go q)).getD .start
  else
    match d.sq? q with
    | none => .fail (.badField 3 8)
    | some s =>
      if s.conn ≠ c.conn then .fail (.badField 3 8)
      else if d.ahead s c then .wait .catchUp
      else
        match (d.kvx.ctxs.filter fun p => p.sq == q && p.e.tag.toNat == tag && p.arrived && !p.cqe && p.before c).getLast? with
        | some p => if d.cqeDone p then p.outcome.go q else .wait (.domino q p.ord)
        | none =>
          match s.recent.find? fun r => r.tag == tag && (if q == c.sq then decide (r.ord < c.ord) else decide (r.avail < c.avail)) with
          | some r => r.go q
          | none =>
            if s.freeze.isSome then .fail (.failed stQueueFrozen 3 (leBytes 2 q))
            else if c.e.strictDomino then .fail (.badField 3 6)
            else .start

/-- The tenant's role is DRIVE_ADMIN. -/
def Drive.isAdmin (tenant : Nat) (d : Drive) : Bool :=
  match d.kvx.store.tenant? tenant with
  | some t => t.admin
  | none => false

/-- The tenant holds right bit `i` on the key space (R80). -/
def Drive.hasRight (tenant ks i : Nat) (d : Drive) : Bool :=
  match d.kvx.store.ks? ks with
  | some k => bit (k.rights tenant) i
  | none => false

/-- Rights and role of a command other than BATCH (R80, R164, R171, R172, R212). -/
def Drive.rightsOk (c : Ctx) (d : Drive) : Bool :=
  let ks := c.e.ksId
  match c.op with
  | 0x02 => d.hasRight c.tenant ks 1
  | 0x03 => d.hasRight c.tenant ks 1
  | 0x06 => d.hasRight c.tenant ks 1
  | 0x07 => d.hasRight c.tenant ks 1
  | 0x15 => true
  | 0x16 => c.e.flag 4 || d.hasRight c.tenant ks 0
  | 0x17 => d.isAdmin c.tenant || (match d.kvx.store.snap? c.e.operand.toNat with
    | some n => n.tenant == c.tenant
    | none => true)
  | 0x18 => true
  | 0x19 => true
  | 0x41 => d.hasRight c.tenant ks 2
  | 0x42 => d.hasRight c.tenant ks 2
  | 0x43 => true
  | 0x44 => true
  | 0x45 => true
  | 0x46 => true
  | 0x49 => c.e.c 0x70 1 == 1 || d.isAdmin c.tenant
  | 0x55 => c.e.c 0x70 1 != 1 || (match d.kvx.store.ks? ks with
    | some k => k.rights c.tenant != 0
    | none => false)
  | op => if adminOp op then d.isAdmin c.tenant else d.hasRight c.tenant ks 0

/-- Stage 4: rights and role, for a BATCH on every operation in list order (R80, R181). -/
def Drive.rightsFault (c : Ctx) (d : Drive) : Option Res :=
  if c.op = 0x10 then
    ((numbered (c.ops.getD [])).find? fun x => !d.hasRight c.tenant x.2.ks (if x.2.opcode == 4 then 0 else 1)).map
      fun x => { (Res.failed stDenied 4) with idx := some x.1 }
  else if d.rightsOk c then none else some (.failed stDenied 4)

/-- A window entry still counts: fewer than 1,048,576 newer ones exist, which the table's length keeps, and 600 s of life
clock have not passed (R247). -/
def WinEntry.live (life : Nat) (w : WinEntry) : Bool := decide (life < w.life + 600000000000)

/-- The command `p` is, or may become, the original of the repeat `c` (R148): one that has passed stage 5 and has not completed, or an
earlier one of the same SQ that has not ended before it. (log 117 DEDUCED) -/
def Drive.originalOf (c p : Ctx) (d : Drive) : Bool :=
  p.arrived && p.tenant == c.tenant && p.e.reqId == c.e.reqId && dedupOp p.op && p.e.dedup && !(p.sq == c.sq && p.ord == c.ord) &&
    ((p.original && !d.cqeDone p) || (p.sq == c.sq && decide (p.ord < c.ord) && p.fail.isNone && !p.settled && !p.original))

/-- Stage 5: DEDUP (R148, R149). -/
def Drive.dedupGo (c : Ctx) (d : Drive) : Go :=
  if !(dedupOp c.op && c.e.dedup) then .start
  else if d.kvx.ctxs.any fun p => d.originalOf c p then .wait .dedup
  else
    match d.kvx.window.find? fun w => w.tenant == c.tenant && w.reqId == c.e.reqId.toNat && w.live d.clk.life with
    | some w => .fail { status := stReplayed, stage := 5, b := leBytes 8 w.status ++ leBytes 8 w.version }
    | none => .start

/-- Commands that go on while SANITIZE runs (R585). (log 44 DEDUCED) -/
def sanitizeOk (op : Nat) : Bool := [0x43, 0x44, 0x45, 0x46, 0x47, 0x48, 0x49, 0x55].contains op

/-- The conflict of a running SANITIZE (R585). -/
def Drive.sanitizeFault (op stage : Nat) (d : Drive) : Option Res :=
  if d.upd.sanState == 1 && !sanitizeOk op then some (.conflict stage 4 1) else none

/-- The mode refuses the command (R528). -/
def Drive.modeFault (op stage : Nat) (d : Drive) : Option Res :=
  if modeOp op && !d.pwr.writable then some (.conflict stage 1 d.pwr.cur) else none

/-- Stage 6 for one key space named by an operation (R50, R63, R65, R187, R188). (log 16 DEDUCED) -/
def Drive.spaceConflict (op ks : Nat) (e : Sqe) (d : Drive) : Option Res :=
  match d.kvx.store.ks? ks with
  | none => none
  | some k =>
    let anchored := k.vclass == .anchored
    if d.kvx.deleting.contains ks then some (.conflict 6 2 5)
    else if op = 0x41 ∧ (d.kvx.store.snaps.any fun n => n.kss.contains ks) then some (.conflict 6 2 6)
    else if (op = 6 ∨ op = 7) ∧ anchored then some (.conflict 6 2 4)
    else if op = 8 ∧ ¬ anchored then some (.conflict 6 2 3)
    else if op = 0x11 ∧ k.index = .hashed then some (.conflict 6 2 1)
    else if op = 0x12 ∧ k.index = .hashed ∧ (e.flag 5 ∨ e.flag 6) then some (.badField 6 1)
    else if op = 0x12 ∧ k.index = .hashed ∧ e.klen ≠ 0 then some (.badField 6 0xA)
    else if op = 0x12 ∧ k.index = .ordered ∧ ¬ e.flag 5 ∧ e.klen = 0 then some (.badField 6 0xA)
    else none

/-- The key spaces a command names, with the opcode that counts for each (R80). -/
def Ctx.named (c : Ctx) : List (Nat × Nat) :=
  if c.op = 0x10 then (c.ops.getD []).map fun o => (o.opcode, o.ks)
  else if [0x15, 0x17, 0x18, 0x19].contains c.op || (c.op == 0x16 && c.e.flag 4) then []
  else if adminOp c.op then
    (if c.op = 0x42 ∨ c.op = 0x41 ∨ (c.op = 0x55 ∧ c.e.c 0x70 1 = 1) then [(c.op, c.e.ksId)] else [])
  else [(c.op, c.e.ksId)]


/-- Stage 7: the cipher keys of the key spaces a data command names (R76). -/
def Drive.keyFault (c : Ctx) (d : Drive) : Option Res :=
  if decide (c.op ≤ 8) || [0x10, 0x11, 0x12, 0x13].contains c.op then
    (numbered c.named).findSome? fun n =>
      match d.kvx.store.ks? n.2.2 with
      | some k => if k.mediaKey.isSome then none else some { (Res.failed stKeyMissing 7 (leBytes 2 k.slot)) with idx := some n.1 }
      | none => none
  else none

/-- The checks of R169 that KEYLOAD makes at entry (R462): the slot is empty, some DRIVE_ADMIN tenant is left. (log 22 DEDUCED) -/
def Drive.keyloadEntry (c : Ctx) (d : Drive) : Option Res :=
  let s := d.kvx.store
  if c.op ≠ 0x4C then none
  else if c.e.c 0x70 1 = 0 then (if (s.slotKey (c.e.c 0x72 2)).isSome then some (.conflict 6 7 1) else none)
  else
    let id := c.e.c 0x74 4
    if c.e.c 0x70 1 = 1 ∧ c.e.c 0x78 1 = 0 ∧ d.isAdmin id ∧ ¬ (s.tenants.any fun t => t.admin && t.id != id) then some (.conflict 6 7 2) else none

/-- An operation in progress that refuses SELFTEST or SANITIZE, or the missing one that a SELFTEST is to stop (R137, R164, R580, R584). -/
def Drive.operationFault (c : Ctx) (stage : Nat) (d : Drive) : Option Res :=
  if c.op ≠ 0x4F ∧ c.op ≠ 0x54 then none
  else if d.upd.activating then some (.conflict stage 4 3)
  else if c.op = 0x4F ∧ (c.e.c 0x70 1 == 0xF) ≠ d.upd.testing then some (.conflict stage 4 2)
  else none

/-- Stages 6 and 7 of a command. -/
def Drive.stage67 (c : Ctx) (d : Drive) : Option Res :=
  (d.modeFault c.op 6).or <| (d.sanitizeFault c.op 6).or <| (d.operationFault c 6).or <| (d.keyloadEntry c).or <|
    ((numbered c.named).findSome? fun n => (d.spaceConflict n.2.1 n.2.2 c.e).map fun r => { r with idx := some n.1 }).or (d.keyFault c)

/-- The reads and buffers that a value descriptor asks for (R113, R146): a sent value, or an output buffer. -/
def valueReads (op : Nat) (send : Bool) (desc : Bytes) (want fieldOff : Nat) : Except Res (List ReadReq × List Buf) :=
  if descFault desc then .error (.badField 8 fieldOff)
  else
    let rd := fun (w : ReadFor) => { what := w, addr := descAddr desc, rkey := descRkey desc, len := descLen desc, issued := false : ReadReq }
    if descList desc then .ok ([rd (if send then .list op else .outList)], [])
    else
      match lengthFault (descLen desc) want with
      | some r => .error r
      | none =>
        if send then .ok ([rd (.value op)], [])
        else .ok ([], [{ addr := descAddr desc, rkey := descRkey desc, len := descLen desc }])

/-- A descriptor in the command-specific bytes that must name one buffer of exactly `n` bytes (R150, R185, R189). -/
def cmdDescFault (e : Sqe) (n : Nat) : Option Res :=
  if descList (padTo 16 e.cmd) || descLen (padTo 16 e.cmd) != n then some (.badField 8 0x70) else none

/-- Stage 8 of a command other than BATCH: what must be read from the host, and the buffers known at once. (log 15 DEDUCED) -/
def stage8 (c : Ctx) : Except Res (List ReadReq × List Buf × Option Bytes × List (Nat × Bytes)) :=
  let e := c.e
  let keyed := keyedOp c.op e || (c.op == 0x12 && e.klen != 0)
  let longKey := keyed && decide (e.klen > 48)
  let kd := slice e.key 0 16
  if longKey && (descList kd || descLen kd != e.klen) then .error (.badField 8 0x20)
  else
    let kr := if longKey then
        [{ what := .key, addr := descAddr kd, rkey := descRkey kd, len := e.klen, issued := false : ReadReq }] else []
    let key := if keyed && !longKey then some (slice e.key 0 e.klen) else none
    let vr : Except Res (List ReadReq × List Buf) :=
      if e.vlen = 0 ∨ (sendsValue c.op e ∧ e.inlineValue) then .ok ([], [])
      else if sendsValue c.op e then valueReads 0 true (slice e.val 0 16) e.vlen 0x50
      else if hasOutput c.op then valueReads 0 false (slice e.val 0 16) e.vlen 0x50
      else .ok ([], [])
    match vr with
    | .error r => .error r
    | .ok (rs, bufs) =>
      let pat := [0x12, 0x14].contains c.op
      let cf := if c.op = 1 ∧ e.flag 6 then cmdDescFault e 32 else if pat then cmdDescFault e 160 else none
      match cf with
      | some r => .error r
      | none =>
        let cd := padTo 16 e.cmd
        let pr := if pat then
            [{ what := .pattern, addr := descAddr cd, rkey := descRkey cd, len := 160, issued := false : ReadReq }] else []
        let vals := if sendsValue c.op e ∧ e.inlineValue then [(0, slice e.val 0 e.vlen)] else []
        .ok (kr ++ pr ++ rs, bufs, key, vals)

/-- Stage 8 of a BATCH (R179, R181, R185): the first fault of its result buffer and its value descriptors; the reads and inline values of
the operations before that fault, whose lists may still decide. -/
def batch8 (e : Sqe) (os : List BatchOp) : Option Res × List ReadReq × List (Nat × Bytes) :=
  match (if e.flag 4 then cmdDescFault e (32 * os.length) else none) with
  | some r => (some r, [], [])
  | none =>
    (numbered os).foldl (fun acc x =>
      match acc.1, x.2.desc with
      | some _, _ => acc
      | none, none => (none, acc.2.1, if x.2.valLen = 0 then acc.2.2 else acc.2.2 ++ [(x.1, x.2.inl)])
      | none, some dsc =>
        match valueReads x.1 true dsc x.2.valLen 0xFFFF with
        | .error r => (some { r with idx := some x.1 }, acc.2)
        | .ok (r, _) => (none, acc.2.1 ++ r, acc.2.2)) (none, [], [])

/-- All data of the command is here: a descriptor is checked (R165), values are staged (R27 step 7). -/
def Drive.dataComplete (q ord : Nat) (d : Drive) : Drive :=
  match d.ctx? q ord with
  | some c =>
    if c.reads.isEmpty && c.fail.isNone then
      match d.kvx.store.descriptorFault c with
      | some r => d.failCtx q ord r
      | none => d.stageAll c
    else d
  | none => d

/-- Stages 6 to 8 of a command that is no repeat. Of two operations of a BATCH that fail, the one at the earlier stage decides, the earlier
in the list within one stage. (log 141 DEDUCED) -/
def Drive.judge (c : Ctx) (d : Drive) : Drive :=
  let q := c.sq
  let ord := c.ord
  match d.stage67 c with
  | some r => d.failCtx q ord r
  | none =>
    match c.ops with
    | some os =>
      let x := batch8 c.e os
      let d := d.onCtx q ord fun c => { c with reads := x.2.1, vals := x.2.2 }
      let d := match x.1 with
        | some r => d.failCtx q ord r
        | none => d
      (d.pump c.conn).dataComplete q ord
    | none =>
      match stage8 c with
      | .error r => d.failCtx q ord r
      | .ok (rs, bufs, key, vals) =>
        ((d.onCtx q ord fun c => { c with reads := rs, out := bufs, key := key, vals := vals }).pump c.conn).dataComplete q ord

/-- Stages 5 to 8 of a command that has entered on its key spaces. -/
def Drive.proceed (q ord : Nat) (d : Drive) : Drive :=
  match d.ctx? q ord with
  | none => d
  | some c =>
    let d := d.dram useDedup (c.e.reqId.toNat % 2 ^ 19) (if dedupOp c.op && c.e.dedup then 1 else 0)
    match d.dedupGo c with
    | .wait w => d.onCtx q ord fun c => { c with wait := w }
    | .fail r => (d.onCtx q ord fun c => { c with wait := .none }).failCtx q ord r
    | .start => (d.onCtx q ord fun c => { c with wait := .none, original := true }).judge c

/-- The quotas of the key spaces that a command names (R49). -/
def Drive.quotasOf (c : Ctx) (d : Drive) : List (Nat × Nat × Nat) :=
  c.named.filterMap fun n => (d.kvx.store.ks? n.2).map fun k => (k.id, k.byteQuota, k.keyQuota)

/-- Stages 4 to 8 of a started command whose key spaces are known: it enters on them with the rights and quotas of now (R49, R81, R181). -/
def Drive.enter (q ord : Nat) (d : Drive) : Drive :=
  match d.ctx? q ord with
  | none => d
  | some c =>
    match d.rightsFault c with
    | some r => d.failCtx q ord r
    | none => (d.onCtx q ord fun x => { x with quotas := d.quotasOf c }).proceed q ord

/-- A WATCH that has started and not settled holds a watch slot (R202). -/
def Drive.watchesHeld (d : Drive) : Nat :=
  d.kvx.watches.length + (d.kvx.ctxs.filter fun c => c.op == 0x14 && c.started && c.fail.isNone && !c.settled).length

/-- A value's bytes not yet programmed. -/
def Staged.unprogrammed (s : Staged) : Nat :=
  sumBy (fun c => if s.len < 4096 then s.len else min 65536 (s.len - 65536 * c.1)) s.chunks

/-- What a FLUSH notes when it enters its domain (R213): the commits it covers already, those of its connection whose CQEs are
written and the earlier ones of its own SQ; their value bytes not yet programmed; and how far the values of its own SQ are
programmed. (log 30 DEDUCED) -/
def Drive.flushEntry (c : Ctx) (d : Drive) : Drive :=
  let cover := d.kvx.log.filter fun r => r.conn == c.conn && (r.cqeDone || (r.sq == c.sq && decide (r.ord < c.ord)))
  let ids := cover.flatMap (·.vals)
  let bytes := sumBy Staged.unprogrammed (d.kvx.staged.filter fun s => ids.contains s.recId)
  d.onCtx c.sq c.ord fun x =>
    { x with flush := cover.map (·.serial), counted := bytes, mark := d.kvx.recCount
             marks := (d.kvx.staged.filter fun s => s.sq == c.sq).map fun s => (s.recId, s.unprogrammed) }

/-- The command starts (R219): a BATCH first reads its list (R181), a WATCH may wait for a table slot (R202). -/
def Drive.begin (q ord : Nat) (d : Drive) : Drive :=
  match d.ctx? q ord with
  | none => d
  | some c =>
    let d := d.onCtx q ord fun c => { c with started := true, wait := .none }
    if c.op = 0x10 then
      let dsc := slice c.e.val 0 16
      match valueReads 0 true dsc c.e.vlen 0x50 with
      | .error r => d.failCtx q ord { r with stage := 4 }
      | .ok (rs, _) =>
        (d.onCtx q ord fun c => { c with reads := rs.map fun r => { r with what := match r.what with
          | .value _ => .batch
          | w => w } }).pump c.conn
    else if c.op = 0x18 then (d.flushEntry c).enter q ord
    else d.enter q ord

/-- Stage 3 (R108, R234-R241): the command starts, waits or fails. Nothing happens to one that has started or ended. A command whose
earlier entries are not all fetched waits for them, as one of them may be a BARRIER; a command that has failed stage 1 or 2 waits behind a
BARRIER too. (log 108 DEDUCED, 109 DESIGN CHOICE) -/
def Drive.tryStart (q ord : Nat) (d : Drive) : Drive :=
  match d.ctx? q ord with
  | none => d
  | some c =>
    if !c.arrived || c.discarded || c.marked.isSome || c.settled then d
    else if c.started then
      (match c.wait with
       | .dedup => d.proceed q ord
       | _ => d)
    else if d.barrierAhead c then d.onCtx q ord fun c => { c with wait := .barrier }
    else if d.hq.sqs.any (fun s => s.conn == c.conn && d.ahead s c) then
      d.onCtx q ord fun c => { c with wait := .catchUp }
    else if c.fail.isSome then d.onCtx q ord fun c => { c with started := true, wait := .none }
    else
      match d.domino c with
      | .wait w => d.onCtx q ord fun c => { c with wait := w }
      | .fail r => (d.onCtx q ord fun c => { c with started := true, wait := .none }).failCtx q ord r
      | .start =>
        if c.op == 0x14 && decide (d.watchesHeld ≥ 1024) then d.onCtx q ord fun c => { c with wait := .watchSlot } else d.begin q ord

/-- Tries to start every command that waits for catch-up fetches or for a watch slot, in the order in which they were fetched.
(log 142 DESIGN CHOICE) -/
def Drive.wake (d : Drive) : Drive :=
  (d.kvx.ctxs.filter fun c => c.arrived && !c.started && (c.wait == .catchUp || c.wait == .none || c.wait == .watchSlot)).foldl
    (fun d c => d.tryStart c.sq c.ord) d

/-- The queue or watch that an entry of connection `conn` names is one of the connection's, and no admin queue where it is to be deleted:
the CQ that QCREATE binds, the queue of QDELETE, the watch of UNWATCH (R104, R107, R208). (log 19 DEDUCED) -/
def Drive.namesOwn (conn op : Nat) (e : Sqe) (d : Drive) : Bool :=
  match op with
  | 0x15 => d.kvx.watches.any fun w => w.id == e.c 0x70 2 && w.conn == conn
  | 0x43 => bit (e.c 0x7A 1) 0 || (d.cq? (e.c 0x78 2)).any fun q => q.conn == conn
  | 0x44 =>
    if bit (e.c 0x72 1) 0 then (d.cq? (e.c 0x70 2)).any fun q => !q.admin && q.conn == conn
    else (d.sq? (e.c 0x70 2)).any fun s => !s.admin && s.conn == conn
  | _ => true

/-- An entry lands in its context (R125): stages 1 and 2, then the start. On a frozen admin SQ only LOGREAD and QRESTART
go on (R265). -/
def Drive.arrive (q ord op : Nat) (e : Sqe) (d : Drive) : Drive :=
  match d.sq? q, d.ctx? q ord with
  | some s, some _ =>
    let dup := d.kvx.ctxs.any fun p => p.sq == q && p.arrived && p.ord != ord && p.e.tag == e.tag
    let r := fetchFault s.admin dup (d.namesOwn s.conn op e) op e
    let d := (d.onSq q fun s => { s with head := s.head + 1 }).onCtx q ord fun c =>
      { c with arrived := true, op := op, e := e, fail := r, dup := dup && (match r with
          | some x => x.b == leBytes 2 4
          | none => false)
               discarded := c.discarded || (c.late && !(op == 0x49 || op == 0x45)) }
    d.tryStart q ord
  | _, _ => d

/-- The requests of a connection that the host can have answered: those that have left the port, before its oldest unacknowledged
notification (R129, R435). -/
def Conn.answerable (x : Conn) : List Req := x.unacked.takeWhile fun r => r.wire && r.what != .notify

/-- The oldest RDMA READ of entries outstanding on the SQ, when the host can have answered it. -/
def Drive.sqeRead? (q : Nat) (d : Drive) : Option (Conn × Req × List Nat) :=
  match d.sq? q with
  | none => none
  | some s =>
    match d.conn? s.conn with
    | none => none
    | some x => x.answerable.findSome? fun r => match r.what with
      | .sqe q' ords => if q' == q then some (x, r, ords) else none
      | _ => none

/-- The connection of an SQ can take and answer one RDMA READ more at once: no entries of the SQ and no notification are on their way. -/
def Drive.readable (q : Nat) (d : Drive) : Bool :=
  match d.sq? q with
  | none => false
  | some s =>
    match d.conn? s.conn with
    | none => false
    | some x => x.unacked.all fun r => match r.what with
      | .sqe q' _ => q' != q
      | .notify => false
      | _ => true

/-- Takes a request off the list of those not acknowledged. -/
def Drive.dropReq (c : Nat) (r : Req) (d : Drive) : Drive := d.onConn c fun x => { x with unacked := x.unacked.erase r }

/-- The entries of the oldest outstanding read arrive (R125). -/
def Drive.sqesArrive (q : Nat) (entries : List Bytes) (d : Drive) : Drive :=
  match d.sqeRead? q with
  | none => d
  | some (x, r, ords) =>
    if ords.length ≠ entries.length ∨ entries.any (fun b => b.length != 128) then d
    else
      let d := (d.dropReq x.idx r).pump x.idx
      ((ords.zip entries).foldl (fun d p => d.arrive q p.1 (byteAt p.2 0) (parseSqe p.2)) d).wake

/-- Handles the bytes of one answered read of a command. -/
def Drive.takeData (c : Ctx) (r : ReadReq) (data : Bytes) (d : Drive) : Drive :=
  let q := c.sq
  let o := c.ord
  match r.what with
  | .key => d.onCtx q o fun c => { c with key := some data }
  | .value i =>
    d.onCtx q o fun c =>
      let c := { c with vals := c.vals ++ [(i, data)] }
      if 65536 ≤ (c.value i).length && !(c.routes.any fun x => x.1 == i) then { c with routes := c.routes ++ [(i, d.pwr.cur)] } else c
  | .batch =>
    let whole := (c.vals.filter fun v => v.1 == 0xFFFF).flatMap (·.2) ++ data
    if whole.length < c.e.vlen then d.onCtx q o fun c => { c with vals := c.vals ++ [(0xFFFF, data)] }
    else
      match parseBatch whole with
      | .error i => d.failCtx q o { (Res.badField 4 0xFFFF) with idx := some i }
      | .ok os => (d.onCtx q o fun c => { c with ops := some os, vals := [] }).enter q o
  | .pattern =>
    let ordered := match d.kvx.store.ks? c.e.ksId with
      | some k => k.index == .ordered
      | none => false
    let d := d.onCtx q o fun c => { c with pat := data }
    if patternOk data (c.op == 0x14) ordered then d else d.failCtx q o (.badField 8 0xFFFF)
  | .list i =>
    let want := match c.ops with
      | some os => (os.getD i { opcode := 0, flags := 0, ks := 0, key := [], valLen := 0, operand := 0, inl := [], desc := none }).valLen
      | none => c.e.vlen
    -- the list of a BATCH's own batch list belongs to no operation
    let own := c.op == 0x10 && c.ops.isNone
    let at_ := fun (f : Res) => if own then { f with stage := 4 } else if c.op == 0x10 then { f with idx := some i } else f
    (match listBufs data with
     | none => d.failCtx q o (at_ (.badField 8 0xFFFF))
     | some bs =>
       match lengthFault (bufTotal bs) want with
       | some f => d.failCtx q o (at_ f)
       | none =>
         let w : ReadFor := if own then .batch else .value i
         (d.onCtx q o fun c => { c with reads := c.reads ++ bs.map fun b =>
           { what := w, addr := b.addr, rkey := b.rkey, len := b.len, issued := false } }).pump c.conn)
  | .outList =>
    match listBufs data with
    | none => d.failCtx q o (.badField 8 0xFFFF)
    | some bs =>
      match lengthFault (bufTotal bs) c.e.vlen with
      | some f => d.failCtx q o f
      | none => d.onCtx q o fun c => { c with out := bs }

/-- The oldest issued read of a command and its request. -/
def Drive.dataRead? (q ord : Nat) (d : Drive) : Option (Ctx × ReadReq × Req) :=
  match d.ctx? q ord with
  | none => none
  | some c =>
    match c.reads.find? (·.issued), (match d.conn? c.conn with
      | some x => x.answerable.find? fun r => r.what == .data q ord
      | none => none) with
    | some r, some req => some (c, r, req)
    | _, _ => none

/-- The host answers the oldest outstanding READ of a command (R111-R113, R181). -/
def Drive.dataArrive (q ord : Nat) (data : Bytes) (d : Drive) : Drive :=
  match d.dataRead? q ord with
  | none => d
  | some (c, r, req) =>
    if data.length ≠ r.len then d
    else
      let d := (d.dropReq c.conn req).onCtx q ord fun c => { c with reads := c.reads.erase r }
      let d := d.pump c.conn
      if !c.alive || (c.fail.any fun f => !(c.op == 0x10 && f.undecided r)) then d
      else (d.takeData c r data).dataComplete q ord

/-- The host refuses the oldest outstanding READ of a command (R113, R126, R181). -/
def Drive.dataRefused (q ord : Nat) (d : Drive) : Drive :=
  match d.dataRead? q ord with
  | none => d
  | some (c, r, req) =>
    let d := (d.dropReq c.conn req).onCtx q ord fun c => { c with reads := c.reads.erase r }
    let own := c.op == 0x10 && c.ops.isNone
    (d.failCtx q ord { (Res.failed stRemote (if own then 4 else 8) (leBytes 8 r.addr)) with
      idx := if own then none else r.what.operation }).pump c.conn

/-- What host memory holds at an address: the bytes of the first region that covers the range. -/
def hostRead (m : HostMem) (addr len : Nat) : Option Bytes :=
  (m.find? fun x => decide (x.1 ≤ addr) && decide (addr + len ≤ x.1 + x.2.length)).map fun x => (x.2.drop (addr - x.1)).take len

/-- Answers a command's reads from host memory, at most `n` of them. -/
def Drive.feed (q ord : Nat) (m : HostMem) : Nat → Drive → Drive
  | 0, d => d
  | n + 1, d =>
    match d.dataRead? q ord with
    | none => d
    | some (_, r, _) =>
      match hostRead m r.addr r.len with
      | some b => Drive.feed q ord m n (d.dataArrive q ord b)
      | none => Drive.feed q ord m n (d.dataRefused q ord)

end Sys2Proof.Machine
end

