-- ==== Sys2Proof/Machine/Settle.lean ====
section
/-! DEFINITION. Settling, the request-ID window, freezes, ABORT marks and error records (06, 07). -/

namespace Sys2Proof.Machine

/-- Free space, signed 64-bit (R350). -/
def Drive.freeSpace (d : Drive) : Nat := (d.med.capacity + 2 ^ 64 - d.kvx.store.stored) % 2 ^ 64

/-- A window entry is kept while fewer than 1,048,576 newer ones have been created (R247). -/
def windowMax : Nat := 1048576

/-- Records the outcome of a DEDUP command that settles in class 0 or 1 (R246). `ver` is the version that R149 replays and
`serial` the commit, when there was one. (log 25 DEDUCED) -/
def Drive.remember (c : Ctx) (status ver : Nat) (serial : Option Nat) (d : Drive) : Drive :=
  if dedupOp c.op && c.e.dedup && goodStatus status && status != stReplayed then
    d.onKvx fun k =>
      let n := k.winSeq + 1
      let l := k.window ++ [{ num := n, tenant := c.tenant, reqId := c.e.reqId.toNat, status := status, version := ver
                              life := d.clk.life, serial := serial }]
      { k with window := l.filter fun w => decide (n < w.num + windowMax), winSeq := n }
  else d

/-- The events that a failing status raises: `KVX_INTERNAL` and `MED_NOSPACE`. -/
def Drive.statusEvents (c : Ctx) (r : Res) (d : Drive) : Drive :=
  if r.status = stInternal then d.raise 0x09A (slice r.b 0 4 ++ [BitVec.ofNat 8 c.op])
  else if r.status = stNoSpace then d.raise 0x022 (leBytes 8 d.freeSpace)
  else d

/-- Takes a command off the lists it waits on and gives its search slot back. (log 39 DEDUCED) -/
def Drive.leaveQueues (q ord : Nat) (d : Drive) : Drive :=
  ((d.onKvx fun k => { k with admq := k.admq.filter (· != (q, ord)) }).onMed
    fun m => { m with paced := m.paced.filter (· != (q, ord)) }).onIdx fun i => i.freeSlot q ord

/-- The result length of a BATCH that did not succeed (R184): the index of the operation at fault, or 0xFFFF. -/
def batchRes (c : Ctx) (r : Res) : Res :=
  if c.op = 0x10 ∧ r.status ≠ stSuccess ∧ r.status ≠ stReplayed then { r with len := r.idx.getD 0xFFFF } else r

/-- A KSDELETE ends: the key space is not DELETING any more. -/
def Drive.undelete (id : Nat) (d : Drive) : Drive := d.onKvx fun k => { k with deleting := k.deleting.filter (· != id) }

/-- The command settles: its status no longer changes (R222). What it staged goes when it failed (R251), and a key space that a KSDELETE had
made DELETING is LIVE again when the command ends without its commit (R50). (log 21 DEDUCED) -/
def Drive.settleOnly (c : Ctx) (r : Res) (d : Drive) : Drive :=
  let r := batchRes c r
  let d := d.onCtx c.sq c.ord fun x => { x with turned := true, settled := true, started := true, wait := .none, res := r }
  let d := d.leaveQueues c.sq c.ord
  let d := if c.op == 0x41 && c.ran && r.status != stSuccess then d.undelete c.e.ksId else d
  (if goodStatus r.status then d else d.unstage c.sq c.ord).statusEvents c r

/-- What a command reports that a freeze or an ABORT ends (R136, R258). -/
def Ctx.endedRes (c : Ctx) : Res :=
  match c.marked with
  | some (tag, sq) => .failed stAborted 0x0B (leBytes 2 tag ++ leBytes 2 sq)
  | none => .failed stNotExecuted 0x0A

/-- A discarded or aborted command that waits for a domino, a barrier, a catch-up fetch or a watch slot settles at once (R251,
R258). -/
def Ctx.endsAtOnce (c : Ctx) : Bool :=
  c.arrived && !c.settled && c.reads.isEmpty && (match c.wait with
    | .domino _ _ => true
    | .catchUp => true
    | .barrier => true
    | .watchSlot => true
    | _ => false)

/-- The SQ freezes at failing command `c`; `rest` are the commands behind it (R254-R261). -/
def Drive.freeze (s : Sq) (c : Ctx) (rest : List Ctx) (d : Drive) : Drive :=
  let d := d.onSq s.id fun x =>
    { x with freeze := some { failOrd := c.ord, failAbs := c.abs, tag := c.e.tag.toNat, op := c.op, res := c.res
                              freezeAbs := x.fetched, tail := x.tail, life := d.clk.life, firstTag := none, lastTag := 0
                              count := 0, recSeq := none } }
  let d := d.onKvx fun k =>
    { k with ctxs := k.ctxs.map fun x =>
        if x.sq == s.id && decide (c.ord < x.ord) then { x with discarded := true, reads := x.reads.filter (·.issued) } else x }
  rest.foldl (fun d x => if x.endsAtOnce then d.settleOnly x x.endedRes else d) d

/-- A STRICT SQ freezes when its earliest command outside classes 0 and 1 has only settled commands of those classes before it
(R256). -/
def Drive.checkFreeze (q : Nat) (d : Drive) : Drive :=
  match d.sq? q with
  | none => d
  | some s =>
    if s.strict && s.freeze.isNone then
      match (d.kvx.ctxs.filter fun c => c.sq == q && decide (s.fresh ≤ c.ord)).dropWhile fun c => c.settled && goodStatus c.res.status with
      | [] => d
      | c :: rest => if c.settled then d.freeze s c rest else d
    else d

/-- A command settles with result `r`; a DEDUP command is remembered with version `ver` and commit `serial`; the SQ may freeze. -/
def Drive.settle (c : Ctx) (r : Res) (ver : Nat) (serial : Option Nat) (d : Drive) : Drive :=
  ((d.settleOnly c r).remember c r.status ver serial).checkFreeze c.sq

/-- Settles a command outside the write path: a class 1 outcome of a DEDUP command is remembered with version `ver`. -/
def Drive.refuse (c : Ctx) (r : Res) (ver : Nat := 0) (d : Drive) : Drive := d.settle c r ver none

/-- A command fails on its way (R225, R256): past its turn it settles, before it the failure is kept until then. One that has been discarded
or marked ends as such (R251, R258). -/
def Drive.failNow (c : Ctx) (r : Res) (d : Drive) : Drive :=
  if !c.alive then d else if c.turned || c.ran then d.settle c r 0 none else d.failCtx c.sq c.ord r

/-- `INTERNAL` with a fault code that the spec leaves open (R136, R268, R482, R483). (log 24 DESIGN CHOICE) -/
def Drive.internal (d : Drive) : Res × Drive :=
  let r := d.drawNat
  (.failed stInternal 0xC (leBytes 4 r.1), r.2)

/-- The command needs a core of a kind of which none is left (R483). -/
def Drive.noCore (aes dig : Bool) (d : Drive) : Bool := (aes && d.cry.aesFence == 0xFFFF) || (dig && d.cry.digFence == 0xFF)

/-- The first command on an SQ with a tag that satisfies `p`. -/
def Drive.find? (q tag : Nat) (p : Ctx → Bool) (d : Drive) : Option Ctx :=
  d.kvx.ctxs.find? fun c => c.sq == q && c.arrived && c.e.tag.toNat == tag && p c

/-- A discarded or marked command has no answer of the host outstanding. -/
def Ctx.idle (c : Ctx) : Bool := c.arrived && !(c.reads.any (·.issued))

/-- A discarded command settles (R258). -/
def Drive.discardSettle (q tag : Nat) (d : Drive) : Drive :=
  match d.find? q tag fun c => c.discarded && !c.settled && c.idle with
  | none => d
  | some c => d.settle c c.endedRes 0 none

/-- A command that an ABORT marked settles (R251, R252). -/
def Drive.abortSettle (q tag : Nat) (d : Drive) : Drive :=
  match d.find? q tag fun c => c.marked.isSome && !c.settled && c.idle with
  | none => d
  | some c => d.settle c c.endedRes 0 none

/-! Error records (R262, R267-R269). -/


/-- Counts a discarded command in its freeze: the first and last tag and the count, in submission order. -/
def Freeze.discard (tag : Nat) (f : Freeze) : Freeze :=
  { f with firstTag := some (f.firstTag.getD tag), lastTag := tag, count := min 0xFFFF (f.count + 1) }

/-- The error record of a freeze (R267). -/
def errRec (s : Sq) (f : Freeze) (seq : Nat) : ErrRec :=
  { seq := seq, sq := s.id, cq := s.cq, admin := s.admin, restarted := none, frozen := true, tag := f.tag, res := f.res
    op := f.op, idx := f.failAbs % s.depth, firstTag := f.firstTag.getD 0, lastTag := f.lastTag, count := f.count
    freezeHead := f.freezeAbs % s.depth, tail := f.tail % s.depth, restart := 0, life := f.life }

/-- Keeps the records of frozen SQs and the 64 newest of the others (R269). -/
def keepErrs (l : List ErrRec) : List ErrRec :=
  let done := l.filter (!·.frozen)
  let old := (done.take (done.length - 64)).map (·.seq)
  l.filter fun r => r.frozen || !old.contains r.seq

/-- The error record of a frozen SQ is written and its event posted, once every discarded command has settled and completed
(R262). -/
def Drive.writeErr (q : Nat) (d : Drive) : Drive :=
  match d.sq? q with
  | none => d
  | some s =>
    match s.freeze with
    | none => d
    | some f =>
      let mine := d.kvx.ctxs.filter fun c => c.sq == q && decide (f.failOrd ≤ c.ord)
      if f.recSeq.isSome || mine.any (fun c => !d.cqeDone c) then d
      else
        match d.conn? s.conn with
        | none => d
        | some x =>
          let f := (mine.filter fun c => c.discarded && !c.cqe).foldl (fun f c => f.discard c.e.tag.toNat) f
          let seq := x.errSeq + 1
          let d := d.onSq q fun s => { s with freeze := some { f with recSeq := some seq } }
          let d := d.onConn s.conn fun x => { x with errSeq := seq, errs := keepErrs (x.errs ++ [errRec s f seq]) }
          d.raiseConn 0x090 s.conn q (leBytes 2 q ++ leBytes 2 f.tag ++ leBytes 2 f.res.status ++ leBytes 2 0 ++ leBytes 8 seq)

/-- A discarded command's CQE is written: it counts in the freeze and, once the record exists, in the record (R265). -/
def Drive.countDiscard (q tag : Nat) (d : Drive) : Drive :=
  match d.sq? q with
  | none => d
  | some s =>
    match s.freeze with
    | none => d
    | some f =>
      let f := f.discard tag
      let d := d.onSq q fun s => { s with freeze := some f }
      match f.recSeq with
      | none => d
      | some n =>
        let upd := fun (r : ErrRec) => { r with firstTag := f.firstTag.getD 0, lastTag := f.lastTag, count := f.count }
        d.onConn s.conn fun x => { x with errs := updFirst (fun r => r.seq == n) upd x.errs }

/-- The freeze of an SQ ends (R266, R278, R107): `mode` tells how a QRESTART ended it, `head` is the restart head. -/
def Drive.endFreeze (q : Nat) (mode : Option Bool) (head : Nat) (d : Drive) : Drive :=
  match d.sq? q with
  | none => d
  | some s =>
    let seq := (s.freeze.bind (·.recSeq)).getD 0
    let d := d.onSq q fun s => { s with freeze := none, fresh := d.kvx.fetchSeq }
    let upd := fun (r : ErrRec) => { r with frozen := false, restarted := mode, restart := head }
    d.onConn s.conn fun x => { x with errs := keepErrs (updFirst (fun r => r.seq == seq) upd x.errs) }

/-- An error record as LOGREAD returns it (R267); `conn` is its connection. -/
def ErrRec.bytes (conn : Nat) (r : ErrRec) : Bytes :=
  let flags := bitAt 0 r.admin + bitAt 1 (r.count != 0) + bitAt 2 r.restarted.isSome + bitAt 3 (r.restarted == some true) + bitAt 4 r.frozen
  leBytes 1 1 ++ leBytes 1 flags ++ leBytes 2 r.sq ++ leBytes 2 r.cq ++ leBytes 2 conn ++ leBytes 8 r.seq ++ leBytes 2 r.tag
    ++ leBytes 2 r.res.status ++ leBytes 1 r.op ++ leBytes 1 r.res.stage ++ leBytes 2 r.idx ++ padTo 16 r.res.b
    ++ leBytes 2 r.firstTag ++ leBytes 2 r.lastTag ++ leBytes 2 r.count ++ leBytes 2 r.freezeHead ++ leBytes 2 r.tail
    ++ leBytes 2 r.restart ++ leBytes 4 r.res.len ++ leBytes 8 r.life

end Sys2Proof.Machine
end

