-- ==== Sys2Proof/Machine/Commit.lean ====
section
/-! DEFINITION. Commits: charges, the energy ledger, durability and acknowledgement, commit records, placement of records in
segments, pacing, revocation of snapshots (02, 09, 10). -/

namespace Sys2Proof.Machine

/-! Charges and durability (R386-R393). -/

/-- The charge of a staged value (R391). -/
def Staged.charge (s : Staged) : Nat := s.keyLen + s.unprogrammed + 128


/-- Every value of a commit record is programmed. -/
def Kvx.valsDone (k : Kvx) (r : CommitRec) : Bool := r.vals.all fun v => !(k.staged.any fun s => s.recId == v)

/-- Everything of the command is on flash. -/
def Kvx.programmed (k : Kvx) (r : CommitRec) : Bool := r.journaled && k.valsDone r

/-- R386. -/
def Kvx.durable (k : Kvx) (r : CommitRec) : Bool := (r.admitted && !r.media) || k.programmed r

/-- `p` is a prefix predecessor of `r` (R387). -/
def CommitRec.precedes (p r : CommitRec) : Bool :=
  p.domain == r.domain && decide (p.serial < r.serial) && (r.strict || p.keys.meets r.keys)

/-- The acknowledgement condition of a command (R388): none for a command that committed nothing. -/
def Kvx.ackReady (k : Kvx) (c : Ctx) : Bool :=
  match c.serial with
  | none => true
  | some n =>
    match k.log.find? fun r => r.serial == n with
    | none => true
    | some r => k.durable r && (k.log.filter fun p => p.precedes r).all k.durable

/-- The dirty bytes: the charges of all admitted commands (R393). -/
def Kvx.dirty (k : Kvx) : Nat :=
  sumBy (fun (r : CommitRec) =>
    if r.admitted then
      (if r.journaled then 0 else 128 * r.lone) + sumBy Staged.charge (k.staged.filter fun s => r.vals.contains s.recId)
    else 0) k.log

/-! The energy ledger (R394, R396, R397, R399). Energies are in microjoule. -/

/-- The measured energy covers `x` bytes: e_meas * 0.75 >= 1.2 + 0.9 * x / 2^30. -/
def energyOk (mj x : Nat) : Bool := decide (1200000 * 2 ^ 30 + 900000 * x ≤ mj * 750 * 2 ^ 30)

/-- Both tests of R394 for `x` bytes in all. -/
def Bank.admits (b : Bank) (x : Nat) : Bool := energyOk b.emeas x && decide (x ≤ b.stageCap * 2 ^ 20)

/-- The energy limit in MiB (R417). -/
def Bank.elim (b : Bank) : Nat := if b.emeas < 1600 then 0 else min 8191 ((b.emeas * 750 - 1200000) * 1024 / 900000)

/-- The effective limit in MiB (R417). -/
def Bank.limit (b : Bank) : Nat := if b.en then min b.elim b.stageCap else 0

/-- The dirty bytes as `PWR_DIRTY` reports them, in KiB. -/
def Kvx.dirtyKib (k : Kvx) : Nat := (k.dirty + 1023) / 1024

/-- What the ledger answers a command at its turn: admitted, unprotected (with what `PWR_UNPROT` counts), or to wait. -/
inductive Ledger where
  | admitted | unprotected (counted : Bool) | wait
  deriving DecidableEq, Repr

/-- R389, R394, R395, R399. -/
def Drive.ledger (c : Ctx) (charge : Nat) (d : Drive) : Ledger :=
  if c.e.mediaAck && dedupOp c.op then .unprotected false
  else if !d.bank.en || !d.bank.admits charge then .unprotected true
  else if (match d.kvx.admq with
      | [] => true
      | h :: _ => h == (c.sq, c.ord)) && d.bank.admits (1024 * d.kvx.dirtyKib + charge) then .admitted
  else .wait

/-- A command that is not admitted waits and keeps its place (R395). -/
def Drive.waitAdmission (c : Ctx) (d : Drive) : Drive :=
  if d.kvx.admq.contains (c.sq, c.ord) then d
  else
    (d.onKvx fun k => { k with admq := k.admq ++ [(c.sq, c.ord)] }).onBank fun b => { b with waits := wrap32 (b.waits + 1) }

/-! Placement (R63-R65, R340, R341, R343, R357, R365). -/


/-- Frames of segments of some cell modes. -/
def Med.framesOf (p : Cell → Bool) (m : Med) : Nat := sumBy (fun (s : Segment) => if p s.cell then s.exts.length else 0) m.segs

/-- Frames that hold segments or wait to be erased, but for those of the buffer. -/
def Med.usedFrames (m : Med) : Nat :=
  m.framesOf (· != .buffer) + sumBy (fun (s : Segment) => match s.old with
    | some o => o.exts.length
    | none => 0) m.segs

/-- Frames that the yo-yo buffer takes at an actual size, each holding 1.875 GiB (R341, R354). -/
def Med.bufferFrames (actual : Nat) (m : Med) : Nat := max (m.framesOf (· == .buffer)) ((actual * 8 + 14) / 15)

/-- Free frames (R339, R354, R365). -/
def Med.freeFrames (m : Med) : Nat := m.frames - setAside - m.usedFrames - m.bufferFrames m.actual

/-- The next segment ID: ascending modulo 2^20, skipping those in use (R340). Answers how many IDs are used up. -/
def Med.nextId (m : Med) : Nat × Nat :=
  let id := fun (j : Nat) => (Config.firstSegment m.segBase + m.nextSeg + j) % 2 ^ 20
  let used := m.segs.flatMap fun s => s.exts.map (·.id)
  let j := ((List.range (used.length + 1)).find? fun j => !(used.contains (id j))).getD 0
  (id j, j + 1)

/-- Frame numbers in use. -/
def Med.busyFrames (m : Med) : List Nat := m.exts.map (·.frame)

/-- The frame can be programmed: no layout lacks two channels, and a good block is there for every slice. Unless `narrow`, it lacks no
channel but a lost one. -/
def Med.frameOk (narrow : Bool) (m : Med) (f : Nat) : Bool :=
  let l := m.lackers f
  decide (l.length ≤ 1) && (narrow || l.all fun c => (m.chan c).state == 2) && m.forms f (m.lacking f)

/-- The least-worn free frame, the lowest number among equals, of those not set aside (R38, R366). -/
def Med.leastWorn (narrow : Bool) (m : Med) : Option Nat :=
  let busy := m.busyFrames
  let worn := m.wornFrames
  let fresh := match lowestFree dataFrames (busy ++ worn) with
    | none => none
    | some f => if m.frameOk narrow f then some f else
        (List.range dataFrames).find? fun f => !(busy.contains f) && !(worn.contains f) && m.frameOk narrow f
  fresh.or <| (worn.filter fun f => !busy.contains f && decide (f < dataFrames) && m.frameOk narrow f).foldl (fun b f => match b with
    | none => some f
    | some x => if m.frameWear f < m.frameWear x then some f else b) none

/-- The frame for the next segment: one on a position that every channel serves, else one that lacks a channel (R366, R373). -/
def Med.nextFrame (m : Med) : Option Nat := (m.leastWorn false).or (m.leastWorn true)

/-- The most worn free frame, for static data (R366). -/
def Med.wornFrame (m : Med) : Option Nat :=
  ((m.wornFrames.filter fun f => !m.busyFrames.contains f && decide (f < dataFrames) && m.frameOk true f).foldl (fun b f => match b with
    | none => some f
    | some x => if m.frameWear x < m.frameWear f then some f else b) none).or m.nextFrame

/-- A frame as a new segment's. -/
def Med.extent (id f : Nat) (m : Med) : Extent :=
  { id := id, frame := f, lacks := m.lacking f, swaps := m.swapsFor f (m.lacking f) }

/-- The segment that was opened last goes on in `n` more, as far as frames are left. -/
def Med.goOn : Nat → Med → Med
  | 0, m => m
  | n + 1, m =>
    match m.nextFrame, m.segs.getLast? with
    | some f, some s =>
      let i := m.nextId
      let x := m.extent i.1 f
      Med.goOn n { m with segs := m.segs.dropLast ++ [{ s with more := s.more ++ [x] }], nextSeg := m.nextSeg + i.2 }
    | _, _ => m

/-- Opens a segment for a record of `n` bytes, with as many more as it is too long for one (R340, R341). (log 150 DESIGN CHOICE) -/
def Med.openSeg (cell : Cell) (owner : Option Nat) (n : Nat) (m : Med) : Med :=
  match m.nextFrame with
  | none => m
  | some f =>
    let i := m.nextId
    let x := m.extent i.1 f
    let s : Segment := { id := i.1, used := 0, frame := f, cell := cell, lacks := x.lacks, owner := owner, state := .opened, swaps := x.swaps }
    { m with segs := m.segs ++ [s], nextSeg := m.nextSeg + i.2 }.goOn ((n - 1) / cell.dataSize)

/-- The data space of a segment and of those that go on with it. -/
def Segment.room (s : Segment) : Nat := s.cell.dataSize * s.exts.length

/-- The cell mode in which a value is first programmed (R357): the buffer, or flash itself for a large value of an ANCHORED key
space in ENDURANCE and ARCHIVE. -/
def routeCell (mode : Nat) (k : KeySpace) (len : Nat) : Cell :=
  if (mode == 5 || mode == 6) && k.vclass == .anchored && decide (4096 ≤ len) then
    (if k.retention == .archive then .archive else .qlc)
  else .buffer

/-- The open segment that takes `n` more bytes of a key space. -/
def Med.fitSeg (m : Med) (cell : Cell) (owner : Option Nat) (n : Nat) : Option Segment :=
  m.segs.find? fun s => s.cell == cell && s.owner == owner && s.state == .opened && decide (s.used + n ≤ s.room) && (s.more.isEmpty || s.used == 0)

/-- GiB of data in the buffer, rounded up (R355). -/
def Med.bufferBytes (m : Med) : Nat := sumBy (fun (s : Segment) => if s.cell == .buffer then s.used else 0) m.segs

/-- The owner of a key space's segments: its own when ANCHORED, shared when MUTABLE. -/
def KeySpace.segOwner (k : KeySpace) : Option Nat := if k.vclass == .anchored then some k.id else none

/-- The room in a segment that no rule gives to the header, the padding and the unit tags of a record: at most 128 bytes as in a pack (R660),
and 16 for each unit's tag (R471). -/
def recSlack (valLen : Nat) : Nat := 128 + 16 * ((valLen + 4095) / 4096)

/-- The room that a record is given in a segment: its key, its stored bytes, and its slack (R343, R470, R660). (log 36 DESIGN CHOICE) -/
def recSpace (keyLen valLen : Nat) : Nat := keyLen + storedLen valLen + recSlack valLen
def Rec.space (r : Rec) : Nat := recSpace r.key.length r.value.length

/-- No segment. -/
def noSeg : Nat := 2 ^ 20

/-- The open segments of an owner in a cell mode take no more records. -/
def Med.sealOpen (cell : Cell) (owner : Option Nat) (m : Med) : Med :=
  { m with segs := m.segs.map fun s => if s.cell == cell && s.owner == owner && s.state == .opened then { s with state := .sealed } else s }

/-- Places a record: the segment it goes to, its offset there, and the state with it; none when no frame is left for it. Records follow each
other in the order in which they are placed (R343); where in its room a record begins is open (R64, R663). No location comes twice while the
segment lives (R52, R63). (log 36 DESIGN CHOICE) -/
def Med.place (cell : Cell) (owner : Option Nat) (keyLen valLen free : Nat) (m : Med) : Option (Nat × Nat × Med) :=
  let n := recSpace keyLen valLen
  let m := if (m.fitSeg cell owner n).isSome then m else (m.sealOpen cell owner).openSeg cell owner n
  (m.fitSeg cell owner n).map fun s =>
    (s.id, s.used + Config.freeNat free % (recSlack valLen + 1),
      { m with segs := updFirst (fun x => x.id == s.id) (fun x => { x with used := x.used + n }) m.segs })

/-- Below the floor of free frames, or not above it again while writes wait there (R365). -/
def Med.floorHolds (m : Med) : Bool := decide (m.freeFrames < 160) || (m.atFloor && decide (m.freeFrames ≤ 160))

/-- A write that would leave the media as in `after` has to wait: the buffer would hold more than its actual size (R355), or the write takes
new frames at the floor (R365). -/
def Med.mustWait (m after : Med) : Bool :=
  (decide (m.bufferBytes < after.bufferBytes) && decide (after.actual * 2 ^ 30 < after.bufferBytes)) ||
    (decide (after.freeFrames < m.freeFrames) && m.floorHolds)

/-! The write credit and pacing (R368-R370). -/

/-- 1 PiB. -/
def pib : Nat := 2 ^ 50

/-- The write credit at installed time `s` seconds (R369). -/
def writeCredit (s : Nat) : Nat := min (80 * pib) (8 * pib + 72 * pib * s / 1262304000)

/-- Bytes that a write adds to the host bytes written (R368). -/
def hostBytes (s : Store) (o : WriteOp) : Nat :=
  match s.ks? o.ks with
  | some k => if k.retention == .standard && o.kind != .delete && o.kind != .check then o.key.length + o.value.length else 0
  | none => 0

/-- Pacing starts, ends and comes near, with its events (R370). -/
def Drive.paceCheck (d : Drive) : Drive :=
  let credit := writeCredit d.clk.installed
  let data := leBytes 8 d.med.hostW ++ leBytes 8 credit
  let on := decide (credit ≤ d.med.hostW)
  let near := decide (credit ≤ d.med.hostW + pib)
  let was := d.med.pacing
  let wasNear := d.med.near
  let d := d.onMed fun m => { m with pacing := on, near := near }
  let d := if near && !wasNear then d.raise 0x024 data else d
  if on && !was then d.raise 0x025 data else if !on && was then d.raise 0x026 data else d

/-- A paced write may go now: it is the first that waits and the bucket holds its bytes (R370). (log 35 DESIGN CHOICE) -/
def Drive.paceOk (c : Ctx) (n : Nat) (d : Drive) : Bool :=
  n == 0 || !d.med.pacing ||
    ((match d.med.paced with
      | [] => true
      | h :: _ => h == (c.sq, c.ord)) && decide (min n (2 ^ 30) ≤ d.med.bucket))

/-! Commit records (R406, R407). -/

/-- The domain serial and order of an SQ. -/
def Drive.domain (q : Nat) (d : Drive) : Nat × Bool :=
  match d.sq? q with
  | some s => (s.serial, s.strict)
  | none => (0, true)

/-- A FLUSH that waits on the command's SQ covers its commit (R213): its values count with the bytes that were not programmed
when the FLUSH entered its domain. -/
def Drive.coverFlush (c : Ctx) (t : Nat) (vals : List Staged) (d : Drive) : Drive :=
  d.onKvx fun k =>
    { k with
      ctxs := k.ctxs.map fun f =>
        if f.op == 0x18 && f.sq == c.sq && decide (c.ord < f.ord) && f.started && !f.settled then
          let left := fun (s : Staged) => if s.recId ≤ f.mark then lookupD f.marks s.recId 0 else s.len
          { f with flush := f.flush ++ [t], counted := f.counted + sumBy left vals }
        else f }

/-- The packs and chunks that hold the values of a commit, with where they lie and their check values (R407): one pack for a value below
4 KiB, else a chunk for each 64 KiB. (log 155 DESIGN CHOICE) -/
def Effect.parts : Effect → List DataPart
  | .putRec r =>
    if r.value.length < 4096 then [{ recId := r.recId, seg := r.seg, off := r.off, check := Config.partCheck r.value }]
    else (List.range ((r.value.length + 65535) / 65536)).map fun i =>
      { recId := r.recId, seg := r.seg, off := r.off + 65536 * i, check := Config.partCheck ((r.value.drop (65536 * i)).take 65536) }
  | _ => []

/-- The commit of a command: the turn serial, the commit record, the change of the stored state (R406, R407). `vals` are the
values it stores and `lone` its charges of 128 bytes. -/
def Drive.commit (c : Ctx) (effs : List Effect) (keys : KeySet) (vals : List Staged) (lone : Nat) (admitted : Bool) (d : Drive) : Drive :=
  let t := d.kvx.turnSer + 1
  let dom := d.domain c.sq
  let ids := vals.map (·.recId)
  let r : CommitRec :=
    { serial := t, domain := dom.1, strict := dom.2, conn := c.conn, sq := c.sq, ord := c.ord, keys := keys, effs := effs, vals := ids
      parts := effs.flatMap Effect.parts, lone := lone, admitted := admitted, media := c.e.mediaAck && dedupOp c.op, journaled := false, cqeDone := false }
  let d := d.onKvx fun k =>
    { k with
      turnSer := t
      store := k.store.applyAll t effs
      log := k.log ++ [r]
      staged := (k.staged.map fun s => if ids.contains s.recId then { s with serial := some t } else s).filter
        fun s => !(ids.contains s.recId && s.chunks.isEmpty) }
  ((((d.indexCommit effs).dram useJournal (2 * t) 2).onCtx c.sq c.ord fun x => { x with serial := some t })).coverFlush c t vals

/-! Revocation of snapshots (R72). -/

/-- A commit of the drive itself, of no domain: the closing of a snapshot it revokes. (log 33 DEDUCED) -/
def Drive.selfCommit (effs : List Effect) (d : Drive) : Drive :=
  (d.onKvx fun k =>
    let t := k.turnSer + 1
    { k with
      turnSer := t
      store := k.store.applyAll t effs
      log := k.log ++ [{ serial := t, domain := 0, strict := false, conn := 0, sq := 0, ord := 0, keys := .none, effs := effs, vals := []
                         lone := 1, admitted := d.bank.en, media := false, journaled := false, cqeDone := true }] }).indexCommit effs

/-- Commands that run under a snapshot and have not settled end with `SNAPSHOT_REVOKED` (R73, R212). Those before their turn meet
it there; those past it settle now. -/
def Drive.endSnap (handle : Nat) (d : Drive) : Drive :=
  (d.kvx.ctxs.filter fun c => c.snap == some handle && (c.turned || c.ran) && c.alive).foldl
    (fun d c => d.settle c (.failed stSnapRevoked 9) 0 none) d

/-- Revokes one snapshot. -/
def Drive.revoke (n : Snap) (d : Drive) : Drive :=
  ((d.selfCommit [.snapClose n.slot]).endSnap n.handle).raise 0x097 (leBytes 8 n.handle)

/-- The oldest open snapshot. -/
def Store.oldest (s : Store) : Option Snap :=
  s.snaps.foldl (fun o n => match o with
    | none => some n
    | some m => if n.horizon < m.horizon then some n else o) none

/-- The snapshots to revoke, oldest first, until `ok` holds or nothing is held for snapshots; and the state without them. -/
def revokeUntil (ok : Store → Bool) : Nat → Store → List Snap × Store
  | 0, s => ([], s)
  | n + 1, s =>
    if ok s || s.heldAll == 0 then ([], s)
    else
      match s.oldest with
      | none => ([], s)
      | some x =>
        let r := revokeUntil ok n (s.apply 0 (.snapClose x.slot))
        (x :: r.1, r.2)

/-- Free space is at or above the reserve. -/
def spaceOk (capacity : Nat) (s : Store) : Bool := decide (s.stored + reserve ≤ capacity)

/-- Revokes while free space is below the reserve (R72). -/
def Drive.revokeLow (d : Drive) : Drive :=
  (revokeUntil (spaceOk d.med.capacity) d.kvx.store.snaps.length d.kvx.store).1.foldl (fun d n => d.revoke n) d

end Sys2Proof.Machine
end

