-- ==== Sys2Proof/Machine/Turn.lean ====
section
/-! DEFINITION. Turns of the data and set-level commands: read points, commits, scans, snapshots, watches (02, 04, 05, 06). -/

namespace Sys2Proof.Machine

/-! Output to the host. -/

/-- The RDMA WRITEs that carry bytes to offset `off` of a list of buffers, in list order. -/
def pieces : List Buf → Nat → Bytes → List (Nat × Nat × Bytes)
  | [], _, _ => []
  | b :: bs, off, data =>
    if data.isEmpty then []
    else if b.len ≤ off then pieces bs (off - b.len) data
    else
      let n := min (b.len - off) data.length
      (b.addr + off, b.rkey, data.take n) :: pieces bs 0 (data.drop n)

/-- Writes bytes of a command's result into its buffers. -/
def Drive.output (c : Ctx) (off : Nat) (data : Bytes) (d : Drive) : Drive :=
  let ps := pieces c.out off data
  (ps.foldl (fun d p => d.send c.conn .write (.value c.sq c.ord) p.1 p.2.1 p.2.2) d).onCtx c.sq c.ord
    fun x => { x with writes := x.writes + ps.length }

/-- 4 KiB codewords of a value that hold its bytes `off .. off + n - 1` (R333). -/
def codewordsOf (off n : Nat) : List (Nat × Nat) :=
  if n = 0 then []
  else (List.range ((off + n - 1) / 4096 + 1 - off / 4096)).map fun i => (off / 4096 + i, 1)

/-- The DRAM value cache holds the value of a record (R32). -/
def Drive.valueHeld (recId : Nat) (d : Drive) : Bool := d.dmc.vals.any fun v => v.1 == recId

/-- What a read of a record's bytes takes from flash: its codewords and the frame that holds them; nothing for a value in the cache. -/
def Drive.toRead (r : Rec) (off n : Nat) (d : Drive) : List (Nat × Nat) × List Nat :=
  if n = 0 || d.valueHeld r.recId then ([], [])
  else (codewordsOf off n, ((d.med.segs.find? fun s => s.id == r.seg).map (·.frame)).toList)

/-! Reads (R70, R146, R150, R151, R157, R158, R162, R220, R221). -/

/-- The snapshot that a read names: open and covering the key space, or the failure of stage 9 (R73, R198). -/
def Drive.snapshotFor (c : Ctx) (d : Drive) : Except Res (Option Snap) :=
  if snapOp c.op c.e then
    match d.kvx.store.snap? c.e.operand.toNat with
    | none => .error (.failed stSnapRevoked 9)
    | some n => if n.kss.contains c.e.ksId then .ok (some n) else .error (.badField 9 0x18)
  else .ok none

/-- The record a keyed read sees. -/
def Drive.seen (c : Ctx) (key : Bytes) (n : Option Snap) (d : Drive) : Option Rec :=
  match n with
  | some n => d.kvx.store.getAt? c.e.ksId key n.horizon
  | none => d.kvx.store.get? c.e.ksId key

/-- What a read of a record reports and returns: its result, the offset of the first byte returned and the bytes. -/
def readResult (s : Store) (c : Ctx) (r : Rec) (snap : Bool) : Res × Nat × Bytes :=
  let len := r.value.length
  let anchored := match s.ks? r.ks with
    | some k => k.vclass == .anchored
    | none => false
  if c.op = 0x04 then (s.report stSuccess r (anchored && !snap), 0, [])
  else if c.op = 0x05 then
    let off := c.e.c 0x70 4
    if len ≤ off then ({ (versionRes 0x1004 r.version r.wtime len) with stage := 10 }, 0, [])
    else
      let b := (r.value.drop off).take c.e.vlen
      (versionRes stSuccess r.version r.wtime b.length, off, b)
  else if len > c.e.vlen && !c.e.flag 5 then ({ (versionRes stShort r.version r.wtime len) with stage := 8 }, 0, [])
  else
    let res := if c.op = 0x08 then versionRes stSuccess r.version r.wtime len else s.report stSuccess r (anchored && !snap)
    (res, 0, r.value.take c.e.vlen)

/-- The digest a GET returns (R150). -/
def Drive.sendDigest (c : Ctx) (r : Rec) (d : Drive) : Drive :=
  let cd := padTo 16 c.e.cmd
  (d.send c.conn .write (.value c.sq c.ord) (descAddr cd) (descRkey cd) (r.digest.getD (fill 32 0))).onCtx c.sq c.ord
    fun x => { x with writes := x.writes + 1 }

/-- A read takes its turn with result `res`: it settles when it moves no bytes, else its value is read and sent (R222). -/
def Drive.readPoint (c : Ctx) (res : Res) (off : Nat) (data : Bytes) (rec : Option Rec) (snap : Option Snap) (d : Drive) : Drive :=
  let digest := c.op == 0x01 && c.e.flag 6 && res.status == stSuccess
  let t := match rec with
    | some r => d.toRead r off (if c.op = 0x08 then max 1 data.length else data.length)
    | none => ([], [])
  if !goodStatus res.status || res.status != stSuccess || (data.isEmpty && !digest && t.1.isEmpty) then d.refuse c res
  else
    let d := d.onCtx c.sq c.ord fun x => { x with turned := true, res := res, data := data, chunks := t.1, frames := t.2
                                                  source := rec.map fun r => (r.recId, r.value.length), snap := snap.map Snap.handle
                                                  tagged := if rec.any (·.tagged) then t.1.map (·.1) else [] }
    match rec with
    | some r => if digest then d.sendDigest c r else d
    | none => d

/-- The read point of GET, EXISTS, GETRANGE and FIND (R221, R317). -/
def Drive.turnRead (c : Ctx) (d : Drive) : Drive :=
  match d.snapshotFor c with
  | .error r => d.refuse c r
  | .ok n =>
    let key := c.key.getD []
    match d.indexLost c.e.ksId key with
    | some r => d.refuse c r
    | none =>
      let d := d.lookup c.e.ksId key
      let waits := c.op == 0x13 && d.csc.en
      let d := if waits then d.onCsc fun x =>
          { x with find := x.find ++ [(c.sq, c.ord)], headAt := if x.find.isEmpty then d.clk.life else x.headAt }
        else d
      match d.seen c key n with
      | none =>
        if waits then d.onCtx c.sq c.ord fun x => { x with turned := true, res := .failed stNotFound 10 }
        else d.refuse c (.failed stNotFound 10)
      | some r =>
        let x := readResult d.kvx.store c r n.isSome
        if waits then
          let t := d.toRead r 0 x.2.2.length
          d.onCtx c.sq c.ord fun y =>
            { y with turned := true, res := x.1, data := x.2.2, chunks := t.1, frames := t.2, source := some (r.recId, r.value.length)
                     tagged := if r.tagged then t.1.map (·.1) else [] }
        else d.readPoint c x.1 x.2.1 x.2.2 (some r) n

/-- The read point of TGET (R66, R162): the record that the token names is read, and then checked with the token (R666). A token that names
no live record is told so at once. (log 144 DESIGN CHOICE) -/
def Drive.turnTget (c : Ctx) (d : Drive) : Drive :=
  let d := d.dram useSegTable (field (le c.e.cmd 0 9) 0 20 / 4) 1
  match d.kvx.store.byToken? (padTo 16 c.e.cmd) with
  | none => d.refuse c (.failed stTokenStale 9)
  | some r =>
    let x := readResult d.kvx.store c r true
    d.readPoint c x.1 x.2.1 x.2.2 (some r) none

/-! SCAN and SEARCH (R187-R198). -/

/-- How far a SCAN or SEARCH has come: output, entries, the records whose values it returns, keys examined. -/
structure Walk where
  out      : Bytes := []
  count    : Nat := 0
  values   : List Rec := []
  examined : Nat := 0
  deriving DecidableEq, Repr

/-- What a SCAN or SEARCH asks for. -/
structure Query where
  pat    : Option Bytes
  low    : Bytes
  maxN   : Nat
  cap    : Nat
  values : Bool
  buf    : Nat
  deriving DecidableEq, Repr

/-- How a walk ended: exhausted, stopped before a key (MORE), or its first entry did not fit (size needed). -/
inductive WalkEnd where
  | exhausted | more (rest : List (List Rec)) | tooSmall (size : Nat)
  deriving DecidableEq, Repr

/-- One returned entry with its padding (R194). -/
def scanEntry (r : Rec) (value : Bool) : Bytes :=
  let b := leBytes 2 r.key.length ++ leBytes 1 (if value then 1 else 0) ++ [0] ++ leBytes 4 r.value.length ++ leBytes 8 r.version
    ++ leBytes 8 r.wtime ++ r.key ++ (if value then r.value else [])
  padTo (roundUp b.length 8) b

/-- Adds the matching records of one group of keys, or tells what room they need (R195). As the first thing returned, a group that does not
fit with its values is returned whole without any; one that does not fit even so gives the size of the whole group.
(log 114 DESIGN CHOICE) -/
def Walk.addGroup (q : Query) (rs : List Rec) (w : Walk) : Except Nat Walk :=
  let with_ := fun (r : Rec) => q.values && decide (r.value.length ≤ q.cap)
  let full := rs.flatMap fun r => scanEntry r (with_ r)
  let bare := rs.flatMap fun r => scanEntry r false
  if w.out.length + full.length ≤ q.buf then
    .ok { w with out := w.out ++ full, count := w.count + rs.length, values := w.values ++ rs.filter with_ }
  else if w.count = 0 && decide (bare.length ≤ q.buf) then .ok { w with out := bare, count := rs.length }
  else .error bare.length

/-- A key compares above a fixed prefix (R192). -/
def above (low key : Bytes) : Bool := !low.isEmpty && bytesLt low (key.take low.length)

/-- Walks the groups in order (R193). A group of equal fingerprints that passes the maximum number of entries is returned whole as the first
thing returned, else left whole to the next command. (log 114 DESIGN CHOICE) -/
def walkGroups (q : Query) : List (List Rec) → Walk → Walk × WalkEnd
  | [], w => (w, .exhausted)
  | g :: gs, w =>
    let w1 := { w with examined := w.examined + g.length }
    if g.any fun r => above q.low r.key then (w1, .exhausted)
    else
      let hits := g.filter fun r => match q.pat with
        | none => true
        | some p => patternMatch p r.key
      if hits.isEmpty then (if w1.examined ≥ 16777216 then (w1, .more gs) else walkGroups q gs w1)
      else if w.count + hits.length > q.maxN ∧ w.count ≠ 0 then (w, .more (g :: gs))
      else
        match w1.addGroup q hits with
        | .error n => if w.count = 0 then (w, .tooSmall n) else (w, .more (g :: gs))
        | .ok w2 => if w2.count ≥ q.maxN ∨ w2.examined ≥ 16777216 then (w2, .more gs) else walkGroups q gs w2

/-- Groups adjacent records of equal fingerprint (R188). -/
def groupFp (fp : Rec → Nat) : List Rec → List (List Rec)
  | [] => []
  | r :: rs =>
    match groupFp fp rs with
    | (x :: g) :: gs => if fp x = fp r then (r :: x :: g) :: gs else [r] :: (x :: g) :: gs
    | gs => [r] :: gs

/-- What a SCAN or SEARCH finds: how far it comes and how it ends, the records it examines, the index pages it reads. -/
structure Scan where
  walk  : Walk × WalkEnd
  read  : List Rec
  pages : List Nat
  deriving DecidableEq, Repr

/-- The last key that a walk looks at: the key it stops before counts when it was read and did not fit; none when the walk comes to the end
of the index. -/
def Walk.lastKey (q : Query) (from_ : List Rec) (w : Walk × WalkEnd) : Option Rec :=
  let read := from_.take w.1.examined
  match w.2 with
  | .exhausted => if read.any fun r => above q.low r.key then read.getLast? else none
  | _ => if w.1.count ≥ q.maxN ∨ w.1.examined ≥ 16777216 then read.getLast? else (from_[w.1.examined]?).or read.getLast?

/-- The walk of a SCAN or SEARCH through the index of key space `k` as the state stands: the pages from that of the first key it examines to
that of the last one (R187, R188, R293). (log 158 DEDUCED) -/
def Drive.scan (c : Ctx) (k : KeySpace) (n : Option Snap) (d : Drive) : Scan :=
  let search := c.op == 0x12
  let s := d.kvx.store
  let fp := fun (r : Rec) => s.fingerprint r.ks r.key
  let live := s.recs.filter fun r => r.ks == k.id && (match n with
    | some n => r.visible n.horizon
    | none => r.cur)
  let ordered := k.index == .ordered
  let low := if search && ordered then fixedPrefix c.pat else []
  let start := c.key.getD []
  let sorted := sortLt (fun a b => if ordered then bytesLt a.key b.key else decide (fp a < fp b) || (fp a == fp b && bytesLt a.key b.key)) live
  let from_ := sorted.filter fun r =>
    if ordered then (c.e.flag 5 || (if c.e.flag 6 then bytesLt start r.key else !bytesLt r.key start)) && !bytesLt r.key low
    else decide (le c.pat 0x90 8 ≤ fp r)
  let groups := if ordered then from_.map fun r => [r] else groupFp fp from_
  let q : Query :=
    { pat := if search then some c.pat else none, low := low, maxN := if search then le c.pat 0x84 4 else c.e.c 0x70 4
      cap := if search then le c.pat 0x88 4 else c.e.c 0x74 4, values := c.e.flag 7, buf := c.e.vlen }
  let w := walkGroups q groups {}
  let read := from_.take w.1.examined
  let page := fun (f : Nat) (key : Bytes) => (d.idx.pageOf ordered k.id f key).no
  let first := if c.e.flag 5 || bytesLt start low then low else start
  let a := match from_.head? with
    | some r => page (fp r) r.key
    | none => page (le c.pat 0x90 8) first
  { walk := w, read := read, pages := d.idx.span s k.id a ((Walk.lastKey q from_ w).map fun r => page (fp r) r.key) }

/-- The index pages that a command needs, key space and number, in the order in which it needs them. -/
def Drive.indexPages (c : Ctx) (d : Drive) : List (Nat × Nat) :=
  if c.op = 0x11 ∨ c.op = 0x12 then
    match d.snapshotFor c, d.kvx.store.ks? c.e.ksId with
    | .ok n, some k => (d.scan c k n).pages.map fun p => (k.id, p)
    | _, _ => []
  else
    match c.ops, c.key with
    | some os, _ => os.map fun o => (o.ks, d.indexPage o.ks o.key)
    | none, some key => [(c.e.ksId, d.indexPage c.e.ksId key)]
    | none, none => []

/-- The turn of SCAN and SEARCH as far as its output: it settles when the output has been acknowledged (R222). A walk whose last key has the
greatest fingerprint goes on at cursor 0. (log 32 DEDUCED, 115 DESIGN CHOICE) -/
def Drive.turnScan (c : Ctx) (d : Drive) : Drive :=
  let search := c.op == 0x12
  let mine := fun (s : SearchSlot) => s.sq == c.sq && s.ord == c.ord
  if search && d.idx.slots.length ≥ 64 && !(d.idx.slots.any mine) then d
  else
    match d.snapshotFor c, d.kvx.store.ks? c.e.ksId with
    | .error r, _ => d.refuse c r
    | .ok _, none => d.refuse c (.failed stDenied 10)
    | .ok n, some k =>
      let s := d.kvx.store
      let fp := fun (r : Rec) => s.fingerprint r.ks r.key
      let ordered := k.index == .ordered
      let x := d.scan c k n
      let w := x.walk
      let read := x.read
      match x.pages.findSome? fun p => d.pageFault k.id p with
      | some r => d.refuse c r
      | none =>
        let d := d.index fun i => x.pages.foldl (fun i p => i.walk s k.id p d.cacheCap) i
        let d := if search then d.onIdx fun i =>
            let i := i.takeSlot c.sq c.ord k.id c.pat
            match i.slots.find? mine with
            | some slot => (numbered read).foldl (fun i r => i.searchKey slot r.1 r.2.key) i
            | none => i
          else d
        match w.2 with
        | .tooSmall size => d.refuse c { status := stShort, stage := 8, len := size }
        | e =>
          let more := match e with
            | .more _ => true
            | _ => false
          let cursor := match e with
            | .more ((r :: _) :: _) => fp r
            | .more _ => (match read.getLast? with
              | some r => (fp r + 1) % 2 ^ 64
              | none => 0)
            | _ => 0
          let res : Res :=
            { b := leBytes 4 (w.1.count + bitAt 31 more) ++ leBytes 4 w.1.examined ++ leBytes 8 (if search && !ordered && more then cursor else 0)
              len := w.1.out.length }
          if w.1.out.isEmpty then d.refuse c res
          else if w.1.values.any (fun r => !r.value.isEmpty) && d.noCore true false then let r := d.internal; r.2.refuse c r.1
          else
            let t := (numbered w.1.values).map fun v =>
              let r := d.toRead v.2 0 v.2.value.length
              let cw := r.1.map fun y => (16 * v.1 + y.1, y.2)
              (cw, r.2, if v.2.tagged then cw.map (·.1) else [])
            let chunks := t.flatMap (·.1)
            let d := d.onCtx c.sq c.ord fun x =>
              { x with ran := true, res := res, data := w.1.out, chunks := chunks, frames := t.flatMap (·.2.1), snap := n.map Snap.handle
                       tagged := t.flatMap (·.2.2) }
            if chunks.isEmpty then d.output c 0 w.1.out else d

/-! Watches and their checks (R201-R208, R302, R310, R312). -/

/-- Writes the key-ring slot of event `seq` (R206). -/
def Drive.writeRing (w : Watch) (seq : Nat) (key : Bytes) (d : Drive) : Drive :=
  if w.slots = 0 then d
  else
    let off := (seq - 1) % w.slots * 1040
    let b := leBytes 4 seq ++ leBytes 2 key.length ++ fill 10 0 ++ key
    (pieces w.ring off b).foldl (fun d p => d.send w.conn .write (.keyRing w.id w.ord) p.1 p.2.1 p.2.2) d

/-- The event CQE of a watch (R205, R598): queue field 0xFFFF. -/
def watchCqe (w : Watch) (seq kind version klen : Nat) (sev : Nat) : Bytes :=
  eventCqe srcWatch 0xFFFF sev (leBytes 2 w.id ++ leBytes 2 (w.ks + kind * 2 ^ 12) ++ leBytes 4 seq ++ leBytes 8 version) klen

/-- Posts an event of a watch: the next sequence number, the ring slot, the event CQE (R205, R206). -/
def Drive.fireWatch (w : Watch) (kind version : Nat) (key : Bytes) (d : Drive) : Drive :=
  let seq := wrap32 (w.seq + 1)
  let d := d.onKvx fun k => { k with watches := updFirst (fun x => x.id == w.id) (fun x => { x with seq := seq }) k.watches }
  let d := d.writeRing w seq key
  let r := d.occur srcWatch (leBytes 2 w.id ++ leBytes 2 (w.ks + kind * 2 ^ 12) ++ leBytes 4 seq ++ leBytes 8 version)
  let v := r.2.evr.src srcWatch
  r.2.postEvent w.conn (watchCqe w seq kind version key.length v.sev)

/-- The watch fires for a committed write (R203, R302). -/
def Watch.wants (w : Watch) (x : Check) : Bool :=
  let i := if x.kind = 3 then 1 else if x.kind = 6 then 2 else 0
  w.ks == x.ks && decide (w.since < x.serial) && bit (byteAt w.pat 0x84) i && patternMatch w.pat x.key

/-- The oldest queued check runs (R310). -/
def Drive.runCheck (d : Drive) : Drive :=
  match d.kvx.checks with
  | [] => d
  | x :: rest =>
    let d := d.onKvx fun k => { k with checks := rest }
    let d := d.onIdx fun i => i.checkKey x.serial x.ks x.key
    (d.kvx.watches.filter fun w => w.wants x).foldl (fun d w => match d.kvx.watches.find? fun y => y.id == w.id with
      | some w => d.fireWatch w x.kind x.version x.key
      | none => d) d

/-- Runs every queued check, so that a watch that ends has fired for every write before its end. (log 31 DEDUCED) -/
def Drive.drainChecks (d : Drive) : Drive := (List.range d.kvx.checks.length).foldl (fun d _ => d.runCheck) d

/-- A watch ends (R207): its ENDED event when `post`, its rows removed, its slot free. -/
def Drive.endWatch (id : Nat) (post : Bool) (d : Drive) : Drive :=
  match d.kvx.watches.find? fun w => w.id == id with
  | none => d
  | some w =>
    let d := if post then d.fireWatch w 0xF 0 [] else d
    ((d.onKvx fun k => { k with watches := k.watches.filter fun x => x.id != id }).onIdx (Idx.dropWatch id)).wake

/-- The turn of WATCH (R201). On a connection that is ending the watch ends at once (R207). -/
def Drive.turnWatch (c : Ctx) (d : Drive) : Drive :=
  match lowestFree 1024 (d.kvx.watches.map (·.id)) with
  | none => d
  | some id =>
    let w : Watch := { id := id, since := d.kvx.turnSer, conn := c.conn, tenant := c.tenant, ks := c.e.ksId, pat := c.pat, ring := c.out
                       slots := c.e.vlen / 1040, seq := 0, ord := c.ord }
    if d.isClosing c.conn then d.refuse c { b := leBytes 2 id }
    else ((d.onKvx fun k => { k with watches := insertBy (·.id) w k.watches }).onIdx (Idx.addWatch id w.ks w.pat)).refuse c { b := leBytes 2 id }

/-- An event CQE of watch `id` waits for room on a connection (R119, R208). -/
def Drive.watchPosts (conn id : Nat) (d : Drive) : Bool :=
  match d.conn? conn with
  | some x => x.state != .closing && x.events.any fun b => le b 0 2 == srcWatch && le b 8 2 == id
  | none => false

/-- The turn of UNWATCH (R208): the watch may have ended since the check of stage 2. Its CQE waits while an event CQE of the watch waits. -/
def Drive.turnUnwatch (c : Ctx) (d : Drive) : Drive :=
  if d.namesOwn c.conn c.op c.e then (d.drainChecks.endWatch (c.e.c 0x70 2) false).refuse c {} else d.refuse c (.badField 10 0x70)

/-! Writes (R142, R152-R161, R182-R186, R220). -/

def WriteKind.ofOp (op : Nat) : WriteKind :=
  if op = 2 then .put else if op = 7 then .cas else if op = 3 then .delete else if op = 6 then .append else .check

/-- The write operations of a command, not yet placed. -/
def Drive.writeOps (c : Ctx) (d : Drive) : List WriteOp :=
  let vals := d.kvx.stagedOf c.sq c.ord
  let id := fun (i : Nat) => match vals.find? fun s => s.op == i with
    | some s => s.recId
    | none => 0
  let mk := fun (i op flags ks : Nat) (key : Bytes) (operand : Nat) =>
    { kind := .ofOp op, flags := flags, ks := ks, key := key, operand := operand, value := c.value i, recId := id i, seg := 0
      off := 0, tagged := d.cry.vauth : WriteOp }
  match c.ops with
  | some os => (numbered os).map fun x => mk x.1 x.2.opcode x.2.flags x.2.ks x.2.key x.2.operand
  | none => [mk 0 c.op c.e.flags.toNat c.e.ksId (c.key.getD []) c.e.operand.toNat]

/-- The mode whose route the value of an operation takes: that in which it was staged (R357). -/
def Drive.routeMode (d : Drive) (o : WriteOp) : Nat :=
  match d.kvx.staged.find? fun s => s.recId == o.recId with
  | some s => s.mode
  | none => d.pwr.cur

/-- The operation stores a value. -/
def WriteOp.stores (o : WriteOp) : Bool := o.kind == .put || o.kind == .cas || o.kind == .append

/-- The lengths of values as the operations before one in the list leave them (R160, R182): key space and key, length, the newest first. -/
abbrev Lens := List ((Nat × Bytes) × Nat)

/-- The length of a key's value. -/
def Store.lenOf (ks : Nat) (key : Bytes) (l : Lens) (s : Store) : Nat :=
  match l.find? fun x => x.1 == (ks, key) with
  | some x => x.2
  | none => (s.get? ks key).elim 0 fun r => r.value.length

/-- The length of the value that an operation stores: with APPEND the old value followed by the appended bytes (R160). -/
def WriteOp.storedLen (s : Store) (l : Lens) (o : WriteOp) : Nat :=
  if o.kind == .append then s.lenOf o.ks o.key l + o.value.length else o.value.length

/-- The lengths after an operation. -/
def WriteOp.lens (s : Store) (l : Lens) (o : WriteOp) : Lens :=
  if o.stores then ((o.ks, o.key), o.storedLen s l) :: l else if o.kind == .delete then ((o.ks, o.key), 0) :: l else l

/-- Places the values of a list of operations (R340, R357): the placed operations, the segments and the draws made. -/
def placeOps (mode : WriteOp → Nat) (s : Store) : List WriteOp → Lens → Med → Nat → List WriteOp × Med × Nat
  | [], _, m, n => ([], m, n)
  | o :: os, l, m, n =>
    match s.ks? o.ks, o.stores with
    | some k, true =>
      let len := o.storedLen s l
      let p := m.place (routeCell (mode o) k len) k.segOwner o.key.length len n
      let r := placeOps mode s os (o.lens s l) (p.elim m (·.2.2)) (n + 1)
      ({ o with placed := p.isSome, seg := p.elim 0 (·.1), off := p.elim 0 (·.2.1) } :: r.1, r.2)
    | _, _ => let r := placeOps mode s os (o.lens s l) m n; (o :: r.1, r.2)

/-- The staged records of APPENDs and the lengths of the whole values (R160, R391). -/
def appendLens (s : Store) : List WriteOp → Lens → List (Nat × Nat)
  | [], _ => []
  | o :: os, l => (if o.kind == .append then [(o.recId, o.storedLen s l)] else []) ++ appendLens s os (o.lens s l)

/-- The record of one operation of a BATCH in its result buffer (R185). -/
def batchRecord (r : Res) : Bytes :=
  leBytes 2 r.status ++ leBytes 2 (r.flags &&& 8) ++ fill 4 0 ++ padTo 16 r.b ++ leBytes 4 r.len ++ fill 4 0

/-- Writes the records of a BATCH that asked for them. -/
def Drive.sendRecords (c : Ctx) (rs : List Res) (d : Drive) : Drive :=
  if c.op == 0x10 && c.e.flag 4 then
    let cd := padTo 16 c.e.cmd
    d.send c.conn .write (.results c.sq c.ord) (descAddr cd) (descRkey cd) (rs.flatMap batchRecord)
  else d

/-- The quotas by which a write into a key space is judged: those of its entry (R49). -/
def Ctx.quotaOf (c : Ctx) (k : KeySpace) : Nat × Nat := lookupD c.quotas k.id (k.byteQuota, k.keyQuota)

/-- Keys and spaces a write touches, for its commit record. -/
def Ctx.commitKeys (c : Ctx) (s : Store) : KeySet := c.keySet s

/-- The version that a class 1 outcome reports, for the request-ID window (R246). -/
def Res.reported (r : Res) : Nat := if bit r.flags 3 then 0 else le r.b 0 8

/-- A write refused at its turn on the net change of all operations. (log 118 DEDUCED) -/
def Drive.refuseAll (c : Ctx) (r : Res) (n : Nat) (d : Drive) : Drive := (d.sendRecords c (List.replicate n r)).refuse c r

/-- A write whose operation `i` of `n` refused it. -/
def Drive.refuseOp (c : Ctx) (i : Nat) (r : Res) (n : Nat) (d : Drive) : Drive :=
  let rs := (List.range n).map fun j => if j = i then r else { status := stNotExecuted : Res }
  (d.sendRecords c rs).refuse c { r with idx := some i } (if c.op = 0x10 then 0 else r.reported)

/-- The checks that the operations of a write would queue find no room: the write waits before its turn, whatever becomes of it (R312). -/
def Drive.checksFull (ops : List WriteOp) (d : Drive) : Bool :=
  let n := (ops.filter fun o => o.kind != .check && d.kvx.watches.any fun w => w.ks == o.ks).length
  decide (0 < n) && decide (262144 < d.kvx.checks.length + n)

/-- Why a write that would commit waits before its turn (R355, R365, R370): `ops` are its operations as they would be placed, `after` the
media then. -/
def Drive.writeWaits (ops : List WriteOp) (after : Med) (bytes : Nat) (c : Ctx) (d : Drive) : Option Nat :=
  if ops.any (fun o => o.stores && !o.placed) || d.med.mustWait after then some 1
  else if !d.paceOk c bytes then some 2
  else none

/-- The commit of a write: placement, record, host bytes, watch checks (R29, R203, R310, R368). -/
def Drive.commitWrite (c : Ctx) (ops : List WriteOp) (effs : List Effect) (rs : List (Res × Nat)) (wrote bytes : Nat) (med : Med)
    (draws : Nat) (admitted : Bool) (d : Drive) : Drive :=
  let t := d.kvx.turnSer + 1
  let vals := d.kvx.stagedOf c.sq c.ord
  let deletes := (ops.filter fun o => o.kind == .delete).length
  let lone := if vals.isEmpty && deletes == 0 then 1 else deletes
  let watched := fun (ks : Nat) => d.kvx.watches.any fun w => w.ks == ks
  let checks := (ops.zip rs).filterMap fun x =>
    if x.1.kind == .check || !watched x.1.ks then none
    else some { serial := t, ks := x.1.ks, key := x.1.key, kind := (if x.1.kind == .delete then 3 else if x.1.kind == .append then 6 else 2)
                version := x.2.2 : Check }
  let wtime := d.clk.wallTime
  let d := { d with med := { med with bufAt := if med.bufferBytes = d.med.bufferBytes then med.bufAt else d.clk.life
                                      hostW := med.hostW + bytes, hostHour := med.hostHour + sumBy (fun (o : WriteOp) => o.value.length) ops, bucket := if med.pacing then med.bucket - bytes else med.bucket }
                    free := draws }
  let d := d.commit c effs (c.commitKeys d.kvx.store) vals lone admitted
  let d := d.onKvx fun k => { k with checks := k.checks ++ checks }
  let d := d.sendRecords c (rs.map (·.1))
  let res : Res :=
    if c.op = 0x10 then { b := leBytes 2 ops.length ++ fill 6 0 ++ leBytes 8 wtime, len := wrote }
    else match rs with
      | (r, _) :: _ => r
      | [] => {}
  let ver := if c.op = 0x10 then 0 else match rs with
    | (_, v) :: _ => v
    | [] => 0
  ((d.settle c res ver (some t)).revokeLow).paceCheck

/-- A commit that is not admitted is counted when `PWR_UNPROT` counts it. -/
def Drive.countUnprot (counted : Bool) (d : Drive) : Drive :=
  if counted then d.onBank fun b => { b with unprot := wrap32 (b.unprot + 1) } else d

/-- The keys of a write are looked up in list order. -/
def Drive.lookups (ops : List WriteOp) (d : Drive) : Drive := ops.foldl (fun d o => d.lookup o.ks o.key) d

/-- The operations of a write as their values would be placed now, the media and the draws then. -/
def Drive.placed (c : Ctx) (d : Drive) : List WriteOp × Med × Nat := placeOps d.routeMode d.kvx.store (d.writeOps c) [] d.med d.free

/-- The charge of a write whose operations are `ops` (R391). -/
def Drive.chargeOf (c : Ctx) (ops : List WriteOp) (d : Drive) : Nat :=
  let vals := d.kvx.stagedOf c.sq c.ord
  let deletes := (ops.filter fun o => o.kind == .delete).length
  sumBy Staged.charge vals + 128 * (if vals.isEmpty && deletes == 0 then 1 else deletes)

/-- The turn of PUT, CAS, DELETE, APPEND and BATCH (R220). -/
def Drive.turnWrite (c : Ctx) (d : Drive) : Drive :=
  let ops0 := d.writeOps c
  match (d.modeFault c.op 10).or (d.sanitizeFault c.op 10) with
  | some r => d.refuseAll c r ops0.length
  | none =>
    if d.checksFull ops0 then d else
    match (numbered ops0).findSome? fun x => (d.indexLost x.2.ks x.2.key).map fun r => (x.1, r) with
    | some (i, r) => d.refuse c { r with idx := some i }
    | none =>
      let s := d.kvx.store
      let d := d.lookups ops0
      let p := d.placed c
      let ops := p.1
      let bytes := sumBy (hostBytes s) ops
      match evalOps (d.kvx.turnSer + 1) d.clk.wallTime ops 0 s with
      | .error (i, r) => d.refuseOp c i r ops.length
      | .ok (s', effs, rs, wrote) =>
        match quotaFault c.quotaOf s s' (ops.map (·.ks)) with
        | some r => d.refuseAll c r ops.length
        | none =>
          -- R72, R87: the snapshots to revoke so that the write fits
          let fits := fun (x : Store) => match evalOps (d.kvx.turnSer + 1) d.clk.wallTime ops 0 x with
            | .ok (x', _) => !spaceFault d.med.capacity x x'
            | .error _ => true
          let rev := revokeUntil fits s.snaps.length s
          if !fits rev.2 then
            (rev.1.foldl (fun d n => d.revoke n) d).refuseAll c (.failed stNoSpace 10) ops.length
          else if indexFault s s' && !(ops.all fun o => !o.stores || (s.get? o.ks o.key).isSome) then
            (d.raise 0x184 (leBytes 4 (s.indexCharge / 2 ^ 30))).refuseAll c (.failed stNoSpace 10) ops.length
          else
            match d.writeWaits ops p.2.1 bytes c with
            | some 1 =>
              if d.med.floorHolds then (d.onMed fun m => { m with atFloor := true }).raise 0x023 (leBytes 2 d.med.freeFrames) else d
            | some 2 => if d.med.paced.contains (c.sq, c.ord) then d else d.onMed fun m => { m with paced := m.paced ++ [(c.sq, c.ord)] }
            | some _ => d
            | none =>
              let d := d.grow (appendLens s ops [])
              let go := fun (admitted counted : Bool) =>
                if rev.1.isEmpty then (d.countUnprot counted).commitWrite c ops effs rs wrote bytes p.2.1 p.2.2 admitted
                else
                  -- the revocations took turns of their own: the write is placed and evaluated after them
                  let d := (rev.1.foldl (fun d n => d.revoke n) d).countUnprot counted
                  let p := d.placed c
                  match evalOps (d.kvx.turnSer + 1) d.clk.wallTime p.1 0 d.kvx.store with
                  | .error (i, r) => d.refuseOp c i r ops.length
                  | .ok (_, effs, rs, wrote) => d.commitWrite c p.1 effs rs wrote bytes p.2.1 p.2.2 admitted
              match d.ledger c (d.chargeOf c ops) with
              | .wait => d.waitAdmission c
              | .admitted => go true false
              | .unprotected n => go false n

/-! Mutating commands without values: SNAPSHOT, SNAPCLOSE and the admin commands that change stored state. -/

/-- Asks the ledger for 128 bytes and commits (R391, R395): nothing happens while the command waits. `k` goes on after the
commit with its turn serial. -/
def Drive.commitPlain (c : Ctx) (effs : Nat → List Effect) (keys : KeySet) (k : Nat → Drive → Drive) (d : Drive) : Drive :=
  let t := d.kvx.turnSer + 1
  match d.ledger c 128 with
  | .wait => d.waitAdmission c
  | .admitted => k t (d.commit c (effs t) keys [] 1 true)
  | .unprotected n => k t ((d.countUnprot n).commit c (effs t) keys [] 1 false)

/-- The turn of SNAPSHOT (R209, R210). -/
def Drive.turnSnapshot (c : Ctx) (d : Drive) : Drive :=
  match (d.modeFault c.op 10).or (d.sanitizeFault c.op 10) with
  | some r => d.refuse c r
  | none =>
    let s := d.kvx.store
    let kss := if c.e.flag 4 then s.readable c.tenant else [c.e.ksId]
    if kss.isEmpty || !(kss.all fun k => (s.ks? k).isSome) then d.refuse c (.failed stDenied 10)
    else
      match lowestFree 256 (s.snaps.map (·.slot)) with
      | none => d.refuse c (.failed stTooManySnaps 10)
      | some slot =>
        let gen := s.snapGen + 1
        d.commitPlain c (fun t => [.snapOpen { slot := slot, gen := gen, tenant := c.tenant, kss := kss, horizon := t }]) (.spaces kss)
          fun t d => d.settle c { b := leBytes 8 (slot + 256 * gen) ++ leBytes 8 d.clk.wallTime, len := kss.length } 0 (some t)

/-- The turn of SNAPCLOSE (R212). -/
def Drive.turnSnapclose (c : Ctx) (d : Drive) : Drive :=
  match d.sanitizeFault c.op 10 with
  | some r => d.refuse c r
  | none =>
    match d.kvx.store.snap? c.e.operand.toNat with
    | none => d.refuse c (.failed stSnapRevoked 9)
    | some n => d.commitPlain c (fun _ => [.snapClose n.slot]) .none fun t d => ((d.settle c {} 0 (some t)).endSnap n.handle)

/-! FLUSH and BARRIER (R213, R215, R240). -/

/-- Everything a FLUSH covers is on flash, and every earlier write of its SQ has completed (R213). -/
def Drive.flushReady (c : Ctx) (d : Drive) : Bool :=
  (d.earlier c).all (fun p => p.arrived && (!dedupOp p.op || d.cqeDone p)) &&
    (d.kvx.log.filter fun r => c.flush.contains r.serial).all fun r => d.kvx.programmed r

/-- Every command before a BARRIER in connection order has its CQE, fetched or not (R240); on a connection that is ending, where no CQE is
written any more, its end (R131). -/
def Drive.barrierReady (c : Ctx) (d : Drive) : Bool :=
  (d.kvx.ctxs.all fun p => p.conn != c.conn || !p.before c || p.cqe || (p.settled && d.isClosing p.conn)) &&
    d.hq.sqs.all fun s => s.conn != c.conn || s.id == c.sq || !d.ahead s c

end Sys2Proof.Machine
end

