-- ==== Sys2Proof/Machine/Complete.lean ====
section
/-! DEFINITION. Completion: CQEs, settling of reads, acknowledgements and refusals of the drive's requests, releases of waiting
commands, journal programs, checkpoints (03, 06, 07, 10). -/

namespace Sys2Proof.Machine

/-! CQEs (R114-R119, R226, R260, R265). -/

/-- The change of mode that a SETMODE asked for is still in progress; one that parks tells its CQE at step 4 (R521, R530). -/
def Drive.changing (c : Ctx) (d : Drive) : Bool := d.pwr.change.any fun ch => ch.cmd == some (c.sq, c.ord) && !ch.drained

/-- The CQE of a command may be written now (R226). -/
def Drive.cqeAllowed (c : Ctx) (d : Drive) : Bool :=
  c.settled && !c.cqe && d.kvx.ackReady c && !d.isClosing c.conn && !d.cqHeld c.sq &&
    !d.changing c && !(c.op == 0x15 && d.watchPosts c.conn (c.e.c 0x70 2)) &&
    (match d.sq? c.sq with
     | some s => !s.strict || (d.earlier c).all (·.cqe)
     | none => false)

/-- The SQ head that a CQE reports: the freeze head for the failing command and those it discards (R260), else the SQ head. -/
def Sq.headOf (s : Sq) (c : Ctx) : Nat :=
  match s.freeze with
  | some f => (if decide (f.failOrd ≤ c.ord) && !c.late then f.freezeAbs else s.head) % s.depth
  | none => s.head % s.depth

/-- Writes the CQE of a settled command. -/
def Drive.writeCqe (c : Ctx) (d : Drive) : Drive :=
  match d.sq? c.sq with
  | none => d
  | some s =>
    let tag := c.e.tag.toNat
    let b := cqe tag c.sq c.res.status c.res.flags c.res.b c.res.len (s.headOf c)
    let d := d.appendCqe s.cq b (some (c.sq, c.ord))
    let d := d.onCtx c.sq c.ord fun x => { x with cqe := true }
    let done := c.outcome
    let d := d.onSq c.sq fun s => { s with recent := (done :: s.recent).take 64 }
    let d := d.onKvx fun k =>
      { k with log := updFirst (fun r => c.serial == some r.serial) (fun r => { r with cqeDone := true }) k.log
               ctxs := k.ctxs.map fun x => if x.wait == .domino c.sq c.ord then { x with pred := some done } else x }
    (if c.discarded then d.countDiscard c.sq tag else d).moderate s.cq

/-- The command of a CQE whose RDMA WRITE has been acknowledged gives its context back (R123). -/
def Drive.freeCtx (q ord : Nat) (d : Drive) : Drive :=
  d.onKvx fun k => { k with ctxs := k.ctxs.filter fun c => !(c.sq == q && c.ord == ord) }

/-! Settling of reads (R222). -/

/-- Commands that settle when their bytes have been acknowledged. -/
def settlesLate (op : Nat) : Bool := returnsValue op || [0x11, 0x12, 0x47, 0x49, 0x55].contains op

/-- The command waits at the clamp of an island (R17). -/
def Drive.atClamp (c : Ctx) (d : Drive) : Bool := d.upd.clamped.any fun x => x.2 == (c.sq, c.ord)

/-- All bytes of the command have been read and acknowledged. -/
def Drive.readDone (c : Ctx) (d : Drive) : Bool :=
  settlesLate c.op && (c.turned || c.ran) && c.alive && c.chunks.isEmpty && (c.writes == 0 || d.isClosing c.conn)
    && !d.csc.find.contains (c.sq, c.ord) && !d.atClamp c

/-- A read settles. -/
def Drive.settleRead (q tag : Nat) (d : Drive) : Drive :=
  match d.find? q tag fun c => d.readDone c with
  | none => d
  | some c => d.settle c c.res 0 none

/-! Acknowledgements and refusals of the drive's requests (R117, R126, R185, R206, R268). -/

/-- `a` is at or before `b` in PSN order. -/
def psnLe (a b : Nat) : Bool := decide ((b + 2 ^ 24 - a) % 2 ^ 24 < 2 ^ 23)

/-- The request is no RDMA READ and its last packet is covered by an acknowledgement of `psn`. -/
def Req.covered (psn : Nat) (r : Req) : Bool :=
  (match r.kind with
   | .read _ => false
   | _ => true) && psnLe ((r.psn + r.npsn - 1) % 2 ^ 24) psn

/-- What the acknowledgement of a request does. (log 40 DEDUCED) -/
def Drive.acked (r : Req) (d : Drive) : Drive :=
  match r.what with
  | .value q o => d.onCtx q o fun c => { c with writes := c.writes - 1 }
  | .cqe _ (some x) => d.freeCtx x.1 x.2
  | _ => d

/-- The host's NIC acknowledges the requests of connection `c` up to `psn`. -/
def Drive.takeAck (c psn : Nat) (d : Drive) : Drive :=
  match d.conn? c with
  | none => d
  | some x =>
    let done := x.unacked.takeWhile fun r => r.wire && r.covered psn
    -- the first request that is left may be acknowledged in part
    let part := fun (r : Req) => if psnLe r.psn psn && r.kind == .write then { r with got := max r.got ((psn + 1 + 2 ^ 24 - r.psn) % 2 ^ 24) } else r
    let rest := match x.unacked.drop done.length with
      | [] => []
      | r :: rs => (if r.wire && !r.covered psn then part r else r) :: rs
    let d := d.onConn c fun x => { x with unacked := rest, retries := 0, rnrs := 0 }
    done.foldl (fun d r => d.acked r) d

/-- Queue `q` is marked faulted (R126): kind 0 for an SQ, 1 for a CQ. -/
def Drive.faultQueue (c q kind : Nat) (d : Drive) : Drive :=
  let d := if kind = 0 then d.onSq q fun s => { s with faulted := true } else d.onCq q fun s => { s with faulted := true }
  d.raiseConn 0x091 c q (leBytes 2 q ++ leBytes 1 kind)

/-- The host refuses an RDMA WRITE of the drive. -/
def Drive.writeRefused (c psn : Nat) (d : Drive) : Drive :=
  match d.conn? c with
  | none => d
  | some x =>
    match x.unacked.find? fun r => r.psn == psn && r.wire && (match r.kind with
      | .write => true
      | _ => false) with
    | none => d
    | some r =>
      let d := d.dropReq c r
      match r.what with
      | .cqe q _ => d.faultQueue c q 1
      | .value q o =>
        match d.ctx? q o with
        | none => d
        | some y =>
          if y.settled then d
          else if y.marked.isSome || y.discarded then d.onCtx q o fun c => { c with writes := c.writes - 1 }
          else d.settle y (.failed stRemote 9 (leBytes 8 r.addr)) 0 none
      | .results q o =>
        let tag := match d.ctx? q o with
          | some y => y.e.tag.toNat
          | none => 0
        d.raiseConn 0x096 c q (leBytes 2 q ++ leBytes 2 tag)
      | .keyRing w o => if d.kvx.watches.any fun y => y.id == w && y.ord == o then d.drainChecks.endWatch w true else d
      | _ => d

/-- The host refuses an RDMA READ of entries: the SQ is faulted and the entries are not fetched (R126). -/
def Drive.fetchRefused (q : Nat) (d : Drive) : Drive :=
  match d.sqeRead? q with
  | none => d
  | some (x, r, ords) =>
    let gone := d.kvx.ctxs.filter fun c => c.sq == q && ords.contains c.ord
    let d := d.dropReq x.idx r
    let d := d.onKvx fun k => { k with ctxs := k.ctxs.filter fun c => !(c.sq == q && ords.contains c.ord) }
    let d := d.onSq q fun s => { s with fetched := gone.foldl (fun m c => min m c.abs) s.fetched }
    ((d.faultQueue x.idx q 0).pump x.idx).wake

/-! Commands that wait (R219, R235, R237, R241, R148). -/

/-- The command waits for a predecessor whose CQE is written, or never will be (R237). (log 140 DEDUCED) -/
def Drive.dominoDone (c : Ctx) (d : Drive) : Bool :=
  match c.wait with
  | .domino p o => (match d.ctx? p o with
    | none => true
    | some x => d.cqeDone x)
  | _ => false

/-- A dependent starts, or fails, once its predecessor's CQE is written. -/
def Drive.resolveDomino (q tag : Nat) (d : Drive) : Drive :=
  match d.find? q tag fun c => d.dominoDone c with
  | none => d
  | some c => d.tryStart c.sq c.ord

/-- A command behind a BARRIER starts. -/
def Drive.releaseBarrier (q tag : Nat) (d : Drive) : Drive :=
  match d.find? q tag fun c => c.wait == .barrier && !d.barrierAhead c with
  | none => d
  | some c => d.tryStart c.sq c.ord

/-- A waiting repeat goes on once its original has ended. -/
def Drive.releaseRepeat (q tag : Nat) (d : Drive) : Drive :=
  match d.find? q tag fun c => c.wait == .dedup with
  | none => d
  | some c => d.tryStart c.sq c.ord

/-- A waiting event CQE is posted when the event CQ has room (R119). -/
def Drive.releaseEvent (c : Nat) (d : Drive) : Drive :=
  match d.conn? c with
  | none => d
  | some x =>
    match x.events, d.cq? x.eventCq with
    | b :: rest, some q =>
      if !q.faulted && d.cqRoom q then
        ((d.onConn c fun y => { y with events := rest }).appendCqe q.id b none).notify q.id 1
      else d
    | _, _ => d

/-- The notification that moderation time brings, at the earliest 1 µs before `TIME` has passed since the first CQE it covers (R127). -/
def Drive.notifyTimer (q : Nat) (d : Drive) : Drive :=
  match d.cq? q with
  | some c => if c.since = 0 ∨ d.clk.life + 1000 < c.firstAt + 1000 * c.time then d else d.notify q 0
  | none => d

/-! Journal programs and checkpoints (R390, R407, R412, R413). -/

/-- A journal program takes the commit records that wait (R390). -/
def Kvx.journalStart (k : Kvx) : Kvx :=
  if k.journal.isEmpty then { k with journal := (k.log.filter fun r => !r.journaled).map (·.serial) } else k

/-- The journal program in progress is done. -/
def Kvx.journalDone (k : Kvx) : Kvx :=
  { k with log := k.log.map fun r => if k.journal.contains r.serial then { r with journaled := true } else r, journal := [] }

/-- Programs all of staging: every commit record and every committed value is on flash (R412). -/
def Kvx.programAll (k : Kvx) : Kvx :=
  let left := k.staged.filter fun s => s.serial.isNone
  let ids := left.map (·.recId)
  { k with
    log := k.log.map fun r => { r with journaled := true }, journal := [], staged := left, packs := []
    packWait := k.packWait.filter ids.contains
    pack := match k.pack with
      | some p =>
        let rest := p.recs.filter fun r => ids.contains r
        if rest.isEmpty then none else some { p with recs := rest, used := sumBy k.packSize rest }
      | none => none }

/-- A map checkpoint: replay begins from the stored state now (R413). -/
def Kvx.checkpoint (k : Kvx) : Kvx := { k with base := k.store, log := [] }

end Sys2Proof.Machine
end

