-- ==== Sys2Proof/Machine/Casc.lean ====
section
/-! DEFINITION. The drive cascade: the clock, the ring, roll calls, arbitrations of FINDs (08). -/

namespace Sys2Proof.Machine

/-! The queue of FINDs and roll calls (R317, R321, R322). -/

/-- The module's slot bit in a frame (R316). -/
def Drive.slotBit (d : Drive) : Nat := 2 ^ d.mgmt.slotId.toNat

/-- The search sequence number of a FIND (R199). -/
def Drive.findSeq (x : Nat × Nat) (d : Drive) : Nat := ((d.ctx? x.1 x.2).map fun c => c.e.c 0x70 4).getD 0

/-- The slot bit of a module whose FIND matched: its key was there at the read point (R317). -/
def Drive.ownMatch (x : Nat × Nat) (d : Drive) : Nat :=
  if (d.ctx? x.1 x.2).any fun c => c.res.status != stNotFound then d.slotBit else 0

/-- The leader starts a roll call, or owes one until CASC_SYNC is low (R322). It is low when a window has just ended (`ended`, R319 step 8),
while the module itself has no ready FIND, and while another module of the ring holds it low. (log 124 DESIGN CHOICE) -/
def Drive.rollCall (ended : Bool) (d : Drive) : Drive :=
  d.onCsc fun c =>
    if !c.drives then c
    else if c.inRing && c.run.isNone && (ended || c.find.isEmpty || Config.syncHeld d.clk.life) then
      { c with run := some { find := none, sent := none }, due := false, winAt := d.clk.life
               mo := some (.collect { roll := true, seq := 0, mismatch := false, slots := d.slotBit }) }
    else { c with due := true }

/-- Takes a FIND off the queue. A new first one begins to wait. -/
def Drive.findOff (x : Nat × Nat) (d : Drive) : Drive :=
  let d := d.onCsc fun c =>
    let l := c.find.filter (· != x)
    if l.head? = c.find.head? then { c with find := l } else { c with find := l, headVoids := 0, headAt := d.clk.life }
  if d.csc.due && d.csc.find.isEmpty then d.rollCall false else d

/-- A FIND that waits for the cascade completes `INTERNAL` with a cascade fault code (R321). -/
def Drive.findFails (code : Nat) (x : Nat × Nat) (d : Drive) : Drive :=
  let d := d.findOff x
  match d.ctx? x.1 x.2 with
  | some c => if c.settled then d else d.settle c (.failed stInternal 0xC (leBytes 4 (0x0C000000 + code))) 0 none
  | none => d

/-! The clock and the ring (R314, R315, R325). -/

/-- Every waiting FIND completes with a cascade fault code and the module leaves the ring: its bypass closes. -/
def Drive.leaveRing (code : Nat) (d : Drive) : Drive :=
  d.csc.find.foldl (fun d x => d.findFails code x) (d.onCsc fun c => { c with inRing := false, run := none, mo := none })

/-- A write to `CSC_CTL.CLKMST`: 1 starts the sample of CASC_CLK, 0 stops driving. -/
def Drive.clkMaster (on : Bool) (d : Drive) : Drive :=
  d.onCsc fun c =>
    if on then { c with clkMst := true, sampling := !c.drives }
    else { c with clkMst := false, sampling := false, drives := false, clkOk := c.clkOk && !c.drives, inRing := c.inRing && !c.drives
                  run := if c.drives then none else c.run, mo := if c.drives then none else c.mo }

/-- The sample of CASC_CLK ends. -/
def Drive.clkSampled (present : Bool) (d : Drive) : Drive :=
  if d.csc.sampling then
    if present then (d.onCsc fun c => { c with sampling := false, clkOk := true, dupMst := true }).raise 0x1F9 []
    else d.onCsc fun c => { c with sampling := false, clkOk := true, drives := true }
  else d


/-- A write to `CSC_CTL.EN` (R314, R321, R322). -/
def Drive.cascEnable (on : Bool) (d : Drive) : Drive :=
  if on then d.onCsc fun c => if c.en then c else { c with en := true, due := c.drives }
  else (d.onCsc fun c => { c with en := false }).leaveRing 5

/-- A write to `CSC_CTL` with its three fields. -/
def Drive.cscCtl (v : Word) (d : Drive) : Drive :=
  let n := v.toNat
  let d := if bit n 2 ≠ d.csc.clkMst then d.clkMaster (bit n 2) else d
  let d := if bit n 0 ≠ d.csc.en then d.cascEnable (bit n 0) else d
  if bit n 1 then d.rollCall false else d

/-- A window boundary passes: a clock is present, and the bypass of an enabled module opens. A module that has found its slot number
taken stays out until `CSC_STAT.DUPSLOT` is cleared, one that found another clock until it drives or gives CLKMST up.
(log 116 DESIGN CHOICE) -/
def Drive.ringJoin (d : Drive) : Drive :=
  if d.pwr.cur = 0 ∨ d.pwr.cur = 8 then d
  else
    let d := d.onCsc fun c => { c with clkOk := true }
    let c := d.csc
    if c.en && !c.inRing && c.run.isNone && !c.dupSlot && (!c.clkMst || c.drives) then
      (d.onCsc fun c => { c with inRing := true }).rollCall false
    else d

/-- CASC_CLK has been absent for 1 us on a module that does not drive it. -/
def Drive.clkLost (d : Drive) : Drive := if d.csc.drives then d else (d.onCsc fun c => { c with clkOk := false }).leaveRing 1

/-- The first FIND has waited `CSC_SYNCTO.MS` without an arbitration. -/
def Drive.syncTimeout (d : Drive) : Drive :=
  match d.csc.find, d.csc.run with
  | x :: _, none =>
    if d.clk.life < d.csc.headAt + 1000000 * d.csc.syncMs then d
    else (((d.onCsc fun c => { c with syncTo := true }).findFails 2 x)).raise 0x1FD (leBytes 4 (d.findSeq x))
  | _, _ => d

/-! Windows (R317-R322). -/

/-- CASC_SYNC is sampled high: the first FIND is fixed, and the leader sends pass 1 with its own contribution (R319). -/
def Drive.arbStart (d : Drive) : Drive :=
  match d.csc.find with
  | [] => d
  | x :: _ =>
    if d.csc.inRing && d.csc.run.isNone then
      d.onCsc fun c =>
        { c with run := some { find := some x, sent := none }, arb := c.arb + 1, lastSeq := d.findSeq x, headAt := d.clk.life, winAt := d.clk.life
                 mo := if c.drives then some (.collect { roll := false, seq := d.findSeq x % 256, mismatch := false, slots := d.ownMatch x })
                       else c.mo }
    else d

/-- The winning slot of `CSC_PRIO`: the lowest or the highest that matched. -/
def winner (high : Bool) (slots : Nat) : Nat :=
  let l := (List.range 8).filter (bit slots)
  (if high then l.getLast? else l.head?).getD 0

/-- What a module ORs into pass 1 of the window it takes part in (R318): in an arbitration a mismatch with the sequence number of its own
FIND, and its slot bit when it matched; in a roll call its slot bit, and a mismatch when it is set already. -/
def Drive.contribute (f : Pass1) (find : Option (Nat × Nat)) (d : Drive) : Pass1 :=
  if f.roll then { f with mismatch := f.mismatch || bit f.slots d.mgmt.slotId.toNat, slots := f.slots ||| d.slotBit }
  else
    match find with
    | some x => { f with mismatch := f.mismatch || decide (d.findSeq x % 256 ≠ f.seq), slots := f.slots ||| d.ownMatch x }
    | none => f

/-- Pass 1 passes a module that is not the leader, in the ring: it goes on with the module's contribution (R314). In a roll call a module
that sees its slot bit taken leaves the ring (R322). -/
def Drive.pass1By (f : Pass1) (d : Drive) : Drive :=
  let g := d.contribute f (d.csc.run.bind (·.find))
  let dup := f.roll && bit f.slots d.mgmt.slotId.toNat
  let d := d.onCsc fun c => { c with mo := some (.collect g), winAt := d.clk.life }
  if dup then (d.onCsc fun c => { c with dupSlot := true, inRing := false, run := none }).raise 0x1FA (leBytes 1 d.mgmt.slotId.toNat) else d

/-- Pass 1 returns to the leader, its own contribution in it, and the leader sends pass 2 (R319). -/
def Drive.pass1Back (f : Pass1) (latency : Option Nat) (d : Drive) : Drive :=
  let c := d.csc
  match c.run with
  | none => d
  | some w =>
    if w.find.isNone ≠ f.roll || w.sent.isSome then d
    else
      let void := if f.roll then latency.isNone else latency ≠ some c.lat
      let slots := f.slots ||| (match w.find with
        | some x => d.ownMatch x
        | none => d.slotBit)
      let g : Pass2 := { roll := f.roll, void := void, seq := f.seq, mismatch := f.mismatch, slots := slots, win := winner c.high slots
                         valid := slots != 0 && !f.mismatch && !void && !f.roll }
      d.onCsc fun c => { c with run := some { w with sent := some g }, lat := if f.roll then latency.getD c.lat else c.lat, mo := some (.result g) }

/-- Pass 1 comes on CASC_MI. (log 76 DEDUCED) -/
def Drive.pass1 (f : Pass1) (latency : Option Nat) (d : Drive) : Drive :=
  if d.csc.drives then d.pass1Back f latency else if d.csc.inRing then d.pass1By f else d

/-- What step 7 does with the FIND of the window. A void window decides ahead of a mismatch in it (log 146 DESIGN CHOICE). A value in the
cache goes out at once, or waits at the clamp of the crypto island (R17). -/
def Drive.arbOutcome (x : Nat × Nat) (f : Pass2) (d : Drive) : Drive :=
  match d.ctx? x.1 x.2 with
  | none => d.findOff x
  | some c =>
    let seq := c.e.c 0x70 4
    let matched := c.res.status != stNotFound
    if f.void then
      let d := (d.onCsc fun k => { k with voided := true, voids := wrap32 (k.voids + 1), headVoids := k.headVoids + 1, due := k.drives }).raise 0x1FB
        (leBytes 4 seq)
      if d.csc.headVoids ≥ 3 then d.findFails 4 x else d
    else if f.mismatch then
      (((d.onCsc fun k => { k with seqMm := true }).findFails 3 x)).raise 0x1FC (leBytes 4 seq)
    else if f.valid && f.win == d.mgmt.slotId.toNat && matched then
      let d := (d.onCsc fun k => { k with won := wrap32 (k.won + 1) }).findOff x
      if !c.chunks.isEmpty || c.data.isEmpty then d
      else if d.islState 7 ≠ 0 then d.onUpd fun u => { u with clamped := u.clamped ++ [(7, x)] }
      else (d.output c 0 c.data).useValue c.source
    else if f.valid && matched then
      ((d.onCsc fun k => { k with supp := wrap32 (k.supp + 1) }).findOff x).settle c { status := stNotFound, stage := 10, flags := 4 } 0 none
    else (d.findOff x).settle c { status := stNotFound, stage := 10 } 0 none

/-- Pass 2: on the leader the frame it sent, on another module the one it reads and passes on. The window ends. -/
def Drive.pass2 (g : Pass2) (d : Drive) : Drive :=
  let f := if d.csc.drives then (d.csc.run.bind (·.sent)) else some g
  match f with
  | none => d
  | some f =>
    if !d.csc.inRing then d
    else
      let d := d.onCsc fun c => { c with mo := some (.result f) }
      if f.roll then
        if d.csc.run.any fun w => w.find.isSome then d
        else
          let d := d.onCsc fun c => { c with run := none, roll := if f.void then c.roll else f.slots }
          if f.void ∨ d.csc.due then d.rollCall true else d
      else
        match d.csc.run with
        | some ⟨some x, _⟩ =>
          let d := (d.onCsc fun c => { c with run := none }).arbOutcome x f
          if d.csc.due then d.rollCall true else d
        | _ => d

/-! Rows. -/

def execClockSampleEnd (present : Bool) (s : State) : Host.Outcome State Fault Refusal := .next { s with d := s.d.clkSampled present }

def execRingJoin (s : State) : Host.Outcome State Fault Refusal := .next { s with d := s.d.ringJoin }

/-- R322: a roll call once 100 ms have passed without a window. -/
def execRollCallTimer (s : State) : Host.Outcome State Fault Refusal :=
  .next { s with d := if s.d.csc.winAt + 100000000 ≤ s.d.clk.life then s.d.rollCall false else s.d }

def execArbitrationStart (s : State) : Host.Outcome State Fault Refusal := .next { s with d := s.d.arbStart }

def execPass1Return (roll : Bool) (seq : Byte) (mismatch : Bool) (slots : Byte) (latency : Option Nat) (s : State) :
    Host.Outcome State Fault Refusal :=
  .next { s with d := s.d.pass1 { roll := roll, seq := seq.toNat, mismatch := mismatch, slots := slots.toNat } latency }

def execPass2Receive (roll void : Bool) (seq : Byte) (mismatch : Bool) (slots : Byte) (win : BitVec 3) (valid : Bool) (s : State) :
    Host.Outcome State Fault Refusal :=
  let f : Pass2 :=
    { roll := roll, void := void, seq := seq.toNat, mismatch := mismatch, slots := slots.toNat, win := win.toNat, valid := valid }
  .next { s with d := s.d.pass2 f }

def execCascClkLoss (s : State) : Host.Outcome State Fault Refusal := .next { s with d := s.d.clkLost }

def execCscSyncto (s : State) : Host.Outcome State Fault Refusal := .next { s with d := s.d.syncTimeout }

end Sys2Proof.Machine
end

