-- ==== Sys2Proof/Machine/Dram.lean ====
section
/-! DEFINITION. The DRAM controller: speeds and training, retirement of channels, patrols (13). -/

namespace Sys2Proof.Machine

def Dmc.chan (n : Nat) (m : Dmc) : Dram := m.chans.getD n .reset

def Dmc.onChan (n : Nat) (f : Dram → Dram) (m : Dmc) : Dmc :=
  { m with chans := (numbered m.chans).map fun x => if x.1 == n then f x.2 else x.2 }

/-- Some channel trains or switches (R506, R508). -/
def Dmc.moving (m : Dmc) : Bool := m.chans.any fun c => c.state == 2 || c.state == 3

/-- The channel has stored training for a speed. -/
def Dram.has (speed : Nat) (c : Dram) : Bool := bit c.stored (speed - 1)

/-- Starts the next switch or training run that a speed request needs, in ascending channel order, one at a time (R508). -/
def Dmc.advance (m : Dmc) : Dmc :=
  let m : Dmc := { m with chans := m.chans.map fun c => if c.state == 0 && c.pending == c.speed then { c with pending := 0 } else c }
  if m.moving then m
  else
    match (List.range 4).find? fun n => (m.chan n).state == 0 && (m.chan n).pending != 0 with
    | none => m
    | some n => m.onChan n fun c =>
      if c.has c.pending then { c with state := 3, target := c.pending, pending := 0 } else { c with state := 2, target := c.pending }

/-- A speed request to all channels (R508, R509). -/
def Dmc.request (speed : Nat) (m : Dmc) : Dmc :=
  ({ m with chans := m.chans.map fun c =>
      if 4 ≤ c.state then c
      else if (c.state == 3 && c.target == speed) || (c.state != 3 && c.speed == speed) then { c with pending := 0 }
      else { c with pending := speed } } : Dmc).advance

/-- The speed that mode and cap require (R507), 0 where DRAM does not run. -/
def Pwr.dramSpeed (p : Pwr) : Nat :=
  if p.active || p.cur == 0xB then (if p.cur == 6 || p.capEff == 1 then 2 else 3)
  else if p.cur == 9 then 2
  else if p.cur == 7 || p.cur == 0xA then 1
  else if p.cur == 1 then 3 else 0

/-- Asks for the speed that mode and cap now require. -/
def Drive.retarget (d : Drive) : Drive :=
  if d.pwr.dramSpeed = 0 then d else d.onDmc fun m => m.request d.pwr.dramSpeed

/-- HOLD-UP: training stops and all channels run at 3,200 MT/s at once (R510). -/
def Dmc.slow (m : Dmc) : Dmc :=
  { m with chans := m.chans.map fun c => if 4 ≤ c.state then c else { c with state := 0, pending := 0, speed := 1 } }

/-- The mode is entered and the DRAM follows it. -/
def Drive.goMode (mode : Nat) (d : Drive) : Drive := (d.enterMode mode).retarget

/-- What the caches keep when channel `n` retires (R37, R486, R499, R502): every page and every value of 16 KiB or more has lines on each
channel; clean pages go and are read again from flash, dirty ones are rebuilt, the values go. -/
def Drive.shrinkCaches (n : Nat) (d : Drive) : Drive :=
  let d := d.onIdx fun i =>
    let dirty := fun (c : CachedPage) => i.pages.any fun p => p.ks == c.ks && p.no == c.no && p.dirty
    (i.pageOut (i.cached.filter fun c => !dirty c)).shrink d.kvx.store d.cacheCap
  d.onDmc fun m => { m with vals := trimVals d.valueCap (m.vals.filter fun v => !(decide (16384 ≤ v.2) || Config.valueOn v.1 n)) }

/-- Steps 1 to 3 of the retirement of a channel begin (R502): requests for it wait until they end, 262 ms later at most. A retraining of it
that runs is over. (log 62 DEDUCED) -/
def Drive.retireChannel (n : Nat) (d : Drive) : Drive :=
  if 4 ≤ (d.dmc.chan n).state then d
  else
    let t := d.clk.life
    let d := d.onDmc fun m => m.onChan n fun c => { c with state := 4, pending := 0, retEnd := some (t + min (Config.retireNs t) 262000000) }
    match d.upd.running.find? fun a => a.code == 0x08 && a.target == n with
    | some a => d.closeAction a.serial false 0
    | none => d

/-- Step 4 of the retirement of a channel (R502, R504): it is fenced, the caches shrink; with two retired the drive goes READ-ONLY. -/
def Drive.channelGone (n : Nat) (d : Drive) : Drive :=
  if (d.dmc.chan n).state ≠ 4 then d
  else
    let d := d.onDmc fun m => m.onChan n fun c => { c with state := 5, speed := 0, pending := 0, stored := 0, retEnd := none }
    let d := (d.onDmc fun m => m.rehome n).shrinkCaches n
    let d := d.raise 0x1E3 (leBytes 1 n ++ leBytes 1 (if d.dmc.retired ≤ 1 then 48 else 32))
    let d := d.onDmc Dmc.advance
    if d.dmc.retired = 2 then d.wantReadOnly 4 else d

/-- Starts a retraining of a channel at its speed, unless it is retired or another trains (R506). -/
def Drive.retrain (n : Nat) (host : Bool) (d : Drive) : Drive :=
  if n ≥ 4 ∨ (d.dmc.chan n).state ≠ 0 ∨ d.dmc.moving then d
  else (d.onDmc fun m => m.onChan n fun c => { c with state := 2, target := c.speed }).startAction 0x08 0 n host

/-- A retraining is due: the interval has passed since the channel's last training, or its temperature has moved by 10 C (R506). -/
def Drive.retrainDue (n : Nat) (d : Drive) : Bool :=
  decide ((d.dmc.chan n).trainedAt + d.dmc.rtInt * 60000000000 ≤ d.clk.life) || Config.dramTempMoved n (d.dmc.chan n).trainedAt d.clk.life

/-- A training ends (R506, R508, R509). -/
def Drive.trained (n : Nat) (d : Drive) : Drive :=
  if (d.dmc.chan n).state = 2 then
    let d := d.onDmc fun m => (m.onChan n fun c =>
      { c with
        state := 0, stored := if c.has c.target then c.stored else c.stored + 2 ^ (c.target - 1)
        trains := wrap32 (c.trains + 1), trainedAt := d.clk.life }).advance
    match d.upd.running.find? fun a => a.code == 0x08 && a.target == n with
    | some a => d.closeAction a.serial true 0
    | none => d
  else d

/-- The switch in progress ends and the next channel follows. -/
def Dmc.switched (m : Dmc) : Dmc :=
  match (List.range 4).find? fun n => (m.chan n).state == 3 with
  | none => m
  | some n => (m.onChan n fun c => { c with state := 0, speed := c.target }).advance

/-- A patrol starts (R489). -/
def Dmc.patrolStart (m : Dmc) : Dmc := if m.patrol then m else { m with patrol := true, patrolPct := 0, patrolLine := 0 }

/-- A patrol is due: 24 hours have passed since the last complete one (R489). -/
def Drive.patrolDue (d : Drive) : Bool := d.dmc.patrolAt.all fun t => decide (t + 86400000000000 ≤ d.clk.life)

/-- R506. -/
def execDramRetrainTimer (ch : Fin 4) (s : State) : Host.Outcome State Fault Refusal :=
  .next { s with d := if s.d.retrainDue ch.val then s.d.retrain ch.val false else s.d }

def execTrainingComplete (ch : Fin 4) (s : State) : Host.Outcome State Fault Refusal := .next { s with d := s.d.trained ch.val }

/-- The row names a channel; switches run one at a time, so the channel that switches is that one. -/
def execSpeedSwitchDone (ch : Fin 4) (s : State) : Host.Outcome State Fault Refusal :=
  .next { s with d := if (s.d.dmc.chan ch.val).state = 3 then s.d.onDmc Dmc.switched else s.d }

def execPatrolTimer (s : State) : Host.Outcome State Fault Refusal :=
  .next { s with d := if s.d.patrolDue then s.d.onDmc Dmc.patrolStart else s.d }

/-- A beat with one bit in error is corrected and counted (R487). -/
def Drive.corrected (ch sub : Nat) (d : Drive) : Drive :=
  (d.onDmc fun m => m.onChan ch fun c => { c with ce := wrap32 (c.ce + 1) }).raise 0x1E0 (leBytes 1 ch ++ leBytes 1 sub)

/-- R489, R511: every line has been read. Which beats were corrected on the way, and since the last patrol, is an open value. -/
def execPatrolEnd (s : State) : Host.Outcome State Fault Refusal :=
  .next { s with d :=
    if s.d.dmc.patrol then
      { (((Config.correctedBeats s.d.free).foldl (fun d x => d.corrected x.1.val x.2.val) s.d).onDmc fun m =>
          { m with patrol := false, patrolPct := 0, patrolLine := 0, patrolAt := some s.d.clk.life }) with free := s.d.free + 1 }
    else s.d }

end Sys2Proof.Machine
end

