-- ==== Sys2Proof/Machine/Frames.lean ====
section
/-! DEFINITION. Frames: their fields, the frames the drive sends of itself, the neighbour table (11). -/

namespace Sys2Proof.Machine

def portOf (b : Bool) : Port := if b then .b else .a
def onB : Port → Bool
  | .a => false
  | .b => true

/-- The MAC address of a port (R421). -/
def macOf : Port → Nat
  | .a => Config.macA
  | .b => Config.macB

/-- The line rate of a port in tenths of a Gb/s (R418). -/
def PortSt.lineRate (p : PortSt) : Nat :=
  match p.link.res with
  | 1 => 4000
  | 2 => 2000
  | 3 => 2000
  | 4 => 1000
  | 5 => 250
  | _ => 0

/-! Received frames (R428, R430). A frame is given with its FCS. -/

/-- A big-endian field of a frame. -/
def be (b : Bytes) (o n : Nat) : Nat := beNat (slice b o n)

/-- The frame carries one 802.1Q tag. -/
def isTagged (f : Bytes) : Bool := be f 12 2 == 0x8100

/-- Where the EtherType after any tag stands. -/
def typeAt (f : Bytes) : Nat := if isTagged f then 16 else 12
def etherType (f : Bytes) : Nat := be f (typeAt f) 2
/-- What follows the EtherType. -/
def network (f : Bytes) : Bytes := f.drop (typeAt f + 2)

def frameVid (f : Bytes) : Nat := be f 14 2 % 4096
def framePcp (f : Bytes) : Nat := be f 14 2 / 8192

def isV4 (f : Bytes) : Bool := etherType f == 0x0800
def isV6 (f : Bytes) : Bool := etherType f == 0x86DD

/-- DSCP of an IPv4 or IPv6 frame. -/
def frameDscp (f : Bytes) : Option Nat :=
  let n := network f
  if isV4 f then some (byteAt n 1 / 4) else if isV6 f then some (be n 0 2 / 64 % 64) else none

/-- The extension headers of an IPv6 packet: hop-by-hop options, routing, destination options and authentication are passed over. Answers
the header at which the chain ends, a fragment header among them, and where it stands. -/
def v6Chain (n : Bytes) : Nat → Nat → Nat → Nat × Nat
  | 0, nh, o => (nh, o)
  | k + 1, nh, o =>
    if nh = 0 ∨ nh = 43 ∨ nh = 60 then v6Chain n k (byteAt n o) (o + 8 * (byteAt n (o + 1) + 1))
    else if nh = 51 then v6Chain n k (byteAt n o) (o + 4 * (byteAt n (o + 1) + 2))
    else (nh, o)

/-- The upper-layer header of an IPv6 frame and where it stands in the network layer. -/
def v6Upper (f : Bytes) : Nat × Nat := let n := network f; v6Chain n 16 (byteAt n 6) 40

/-- An IPv4 or IPv6 fragment. -/
def isFragment (f : Bytes) : Bool :=
  let n := network f
  (isV4 f && be n 6 2 % 0x4000 != 0) || (isV6 f && (v6Upper f).1 == 44)

/-- Where the UDP header of an unfragmented datagram stands in the network layer. -/
def udpAt (f : Bytes) : Option Nat :=
  let n := network f
  if isFragment f then none
  else if isV4 f && byteAt n 9 == 17 then some (4 * (byteAt n 0 % 16))
  else if isV6 f && (v6Upper f).1 == 17 then some (v6Upper f).2 else none

def udpPort (f : Bytes) : Option Nat := (udpAt f).map fun o => be (network f) (o + 2) 2

/-- The ones' complement sum of 16-bit words. -/
def onesSum (b : Bytes) : Nat :=
  let s := sumBy (fun i => be b (2 * i) 2) (List.range ((b.length + 1) / 2))
  let s := s % 65536 + s / 65536
  s % 65536 + s / 65536

/-- The Internet checksum of a byte string. -/
def checksum (b : Bytes) : Nat := 65535 - onesSum b

/-- The IP header is one that RoCE traffic may carry (R428). -/
def ipHeaderOk (f : Bytes) : Bool :=
  let n := network f
  (isV4 f && byteAt n 0 == 0x45 && onesSum (slice n 0 20) == 65535) || (isV6 f && byteAt n 0 / 16 == 6 && byteAt n 6 == 17)

/-- The IPv4-mapped form of an IPv4 address (R421). -/
def mapped (v4 : Nat) : Nat := 0xFFFF * 2 ^ 32 + v4

/-- The source and the destination address, IPv4 addresses in mapped form. -/
def frameSrc (f : Bytes) : Nat := if isV4 f then mapped (be (network f) 12 4) else be (network f) 8 16
def frameDst (f : Bytes) : Nat := if isV4 f then mapped (be (network f) 16 4) else be (network f) 24 16

/-- The port has the address and it is in use. -/
def PortSt.owns (ip : Nat) (p : PortSt) : Bool := (p.ip4 != 0 && ip == mapped p.ip4) || (p.ip6 != 0 && ip == p.ip6)

/-! Frames that the drive sends. -/

/-- The bucket of a frame length (R451). -/
def sizeBucket (l : Nat) : Nat :=
  if l ≤ 64 then 0 else if l ≤ 127 then 1 else if l ≤ 255 then 2 else if l ≤ 511 then 3 else if l ≤ 1023 then 4 else if l ≤ 1518 then 5
  else if l ≤ 2047 then 6 else if l ≤ 4095 then 7 else if l ≤ 8191 then 8 else 9

def broadcast : Nat := 2 ^ 48 - 1

/-- 0 unicast, 1 multicast, 2 broadcast. -/
def castOf (mac : Nat) : Nat := if mac = broadcast then 2 else if bit mac 40 then 1 else 0

/-- The BTH opcode of a RoCE frame. -/
def bthOp (f : Bytes) : Option Nat := if udpPort f = some 4791 then (udpAt f).map fun o => byteAt (network f) (o + 8) else none

/-- A frame of the drive: padded to 64 bytes with its FCS (R426). -/
def ethFrame (dst src type : Nat) (tag : Option Nat) (body : Bytes) : Bytes :=
  let t := match tag with
    | some v => beBytes 2 0x8100 ++ beBytes 2 v
    | none => []
  let f := beBytes 6 dst ++ beBytes 6 src ++ t ++ beBytes 2 type ++ body
  let f := if f.length < 60 then padTo 60 f else f
  f ++ leBytes 4 (crc32 f).toNat

/-- Hands a frame to a port's link when it is up, and counts it (R441, R451). No frame is longer than `NETx_MAXFRM` (R426). -/
def Drive.emit (p : Port) (f : Bytes) (d : Drive) : Drive :=
  if (d.port p).link.up && decide (f.length ≤ (d.port p).maxFrm) then
    let d := d.onPort p fun x => { x with out := x.out ++ [f] }
    let d := ((((d.stat p 0x30 f.length).stat p 0x31 1).stat p (0x32 + castOf (be f 0 6)) 1).stat p (0x40 + sizeBucket f.length) 1)
    if bthOp f = some 0x81 then d.stat p 0x3F 1 else d
  else d

/-- Sends a frame, or keeps it in the transmit buffer, while that has room, as long as flow control holds the port (R434, R435). -/
def Drive.transmit (p : Port) (f : Bytes) (d : Drive) : Drive :=
  if (d.port p).flow.held.isSome then
    (if d.txBytes (onB p) + f.length ≤ 2 * 2 ^ 20 then d.onPort p fun x => { x with txq := x.txq ++ [f] } else d)
  else d.emit p f

/-- The connections on a port send what they can of the packets that wait. -/
def Drive.releaseAll (d : Drive) : Drive :=
  (d.xpt.conns.filter fun c => !c.txq.isEmpty).foldl (fun d c => d.release c.idx) d

/-- What waited on the port leaves it (R435). -/
def Drive.unhold (p : Port) (d : Drive) : Drive :=
  let q := (d.port p).txq
  let d := d.onPort p fun x => { x with flow := { x.flow with held := none }, txq := [] }
  let d := q.foldl (fun d f => d.emit p f) d
  let cm := d.xpt.cmWait.filter fun m => m.1 == onB p
  let d := if cm.isEmpty then d else d.onXpt fun x => { x with cmOut := x.cmOut ++ cm.map (·.2), cmWait := x.cmWait.filter fun m => m.1 != onB p }
  d.releaseAll

/-! RoCE frames of the drive (R427-R429, R434, R438, R441, R444). (log 159 PRESUMED) -/

/-- The tag of a RoCE frame: with priority flow control its priority is that of the drive's traffic (R429, R434). -/
def PortSt.roceTag (p : PortSt) : Option Nat := if p.tagEn then some ((if p.flow.fc = 2 then p.flow.prio else p.pcp) * 2 ^ 13 + p.vid) else none

/-- An IP header before `n` bytes of UDP, with its traffic class byte; what no rule gives is open. -/
def roceIp (src dst tos psn n : Nat) : Bytes :=
  if isMapped dst then
    let h := [0x45, BitVec.ofNat 8 tos] ++ beBytes 2 (20 + n) ++ beBytes 2 (Config.ipField 0 psn % 65536) ++ beBytes 2 (Config.ipField 1 psn % 2 * 0x4000)
      ++ [BitVec.ofNat 8 (Config.ipField 2 psn), 17, 0, 0] ++ beBytes 4 (src % 2 ^ 32) ++ beBytes 4 (dst % 2 ^ 32)
    overlay h 10 (beBytes 2 (checksum h))
  else
    beBytes 4 (6 * 2 ^ 28 + tos * 2 ^ 20 + Config.ipField 3 psn % 2 ^ 20) ++ beBytes 2 n ++ [17, BitVec.ofNat 8 (Config.ipField 2 psn)]
      ++ beBytes 16 src ++ beBytes 16 dst

/-- The ICRC of a packet: what routers may change counts as ones. -/
def icrc (v4 : Bool) (ip udp bth rest : Bytes) : Bytes :=
  let ip := if v4 then overlay (overlay (overlay ip 1 [0xFF]) 8 [0xFF]) 10 [0xFF, 0xFF]
    else overlay (overlay ip 0 (beBytes 4 (0x6FFFFFFF))) 7 [0xFF]
  leBytes 4 (crc32 (fill 8 0xFF ++ ip ++ overlay udp 6 [0xFF, 0xFF] ++ overlay bth 4 [0xFF] ++ rest)).toNat

/-- The frame of a packet of connection `x` on its port: partition key 0xFFFF, UDP checksum 0; MigReq set after a migration. -/
def roceFrameOf (p : Port) (s : PortSt) (x : Conn) (migReq ect : Bool) (k : Packet) : Bytes :=
  let cnp := k.op == 0x81
  let pad := roundUp k.data.length 4 - k.data.length
  let rest := k.ext ++ k.data ++ fill pad 0
  let bth := [BitVec.ofNat 8 k.op, BitVec.ofNat 8 (Config.bthOpen k.op 0 % 2 * 0x80 + bitAt 6 migReq + pad * 0x10)] ++ beBytes 2 0xFFFF ++ [0]
    ++ beBytes 3 x.path.rqpn ++ [BitVec.ofNat 8 (Config.bthOpen k.op k.psn % 2 * 0x80)] ++ beBytes 3 k.psn
  let n := 8 + bth.length + rest.length + 4
  let tos := if cnp then 4 * s.cnpDscp else 4 * s.dscp + (if ect then 2 else 0)
  let ip := roceIp x.lip x.path.rip tos k.psn n
  let udp := beBytes 2 (Config.ipField 4 x.qpn % 65536) ++ beBytes 2 4791 ++ beBytes 2 n ++ [0, 0]
  ethFrame (if x.path.rmac ≠ 0 then x.path.rmac else x.hop) (macOf p) (if isMapped x.path.rip then 0x0800 else 0x86DD) s.roceTag
    (ip ++ udp ++ bth ++ rest ++ icrc (isMapped x.path.rip) ip udp bth rest)

/-- The frame of a packet that has been handed to a port, on the path that its connection uses now. -/
def Drive.frameOf (portB : Bool) (c : Nat) (k : Packet) (d : Drive) : Option Bytes :=
  (d.conn? c).map fun x => roceFrameOf (portOf portB) (d.port (portOf portB)) x ((d.xpt.net c).alt == .migrated) d.xpt.ect k

/-- The transmitters send what has been handed to them (R435, R451). -/
def Drive.sendAll (d : Drive) : Drive :=
  let d := d.releaseAll
  if d.xpt.tx.isEmpty then d
  else d.xpt.tx.foldl (fun e x => match d.frameOf x.1 x.2.1 x.2.2 with
    | some f => e.transmit (portOf x.1) f
    | none => e) (d.onXpt fun y => { y with tx := [] })

/-- A management frame carries the port's tag with PCP 0 (R429). -/
def PortSt.mgmtTag (p : PortSt) : Option Nat := if p.tagEn then some p.vid else none

def Drive.sendMgmt (p : Port) (dst type : Nat) (body : Bytes) (d : Drive) : Drive :=
  d.transmit p (ethFrame dst (macOf p) type (d.port p).mgmtTag body)

/-- An ARP packet: operation, target hardware and protocol addresses. -/
def arpBody (op sha spa tha tpa : Nat) : Bytes :=
  beBytes 2 1 ++ beBytes 2 0x0800 ++ [6, 4] ++ beBytes 2 op ++ beBytes 6 sha ++ beBytes 4 spa ++ beBytes 6 tha ++ beBytes 4 tpa

/-- An IPv6 packet of ICMPv6 (hop limit 255). -/
def icmp6 (src dst : Nat) (m : Bytes) : Bytes :=
  let pseudo := beBytes 16 src ++ beBytes 16 dst ++ beBytes 4 m.length ++ [0, 0, 0, 58]
  let m := overlay m 2 (beBytes 2 (checksum (pseudo ++ m)))
  [0x60, 0, 0, 0] ++ beBytes 2 m.length ++ [58, 255] ++ beBytes 16 src ++ beBytes 16 dst ++ m

/-- An IPv4 packet of ICMP. -/
def icmp4 (src dst : Nat) (m : Bytes) : Bytes :=
  let m := overlay m 2 (beBytes 2 (checksum m))
  let h := [0x45, 0] ++ beBytes 2 (20 + m.length) ++ [0, 0, 0, 0, 64, 1, 0, 0] ++ beBytes 4 src ++ beBytes 4 dst
  overlay h 10 (beBytes 2 (checksum h)) ++ m

/-- The all-nodes group and its MAC address. -/
def allNodes : Nat := 0xFF02 * 2 ^ 112 + 1
def allNodesMac : Nat := 0x333300000001

/-- The solicited-node group of an address and its MAC address. -/
def solicited (ip : Nat) : Nat := 0xFF02 * 2 ^ 112 + 0x1FF * 2 ^ 24 + ip % 2 ^ 24
def solicitedMac (ip : Nat) : Nat := 0x3333FF000000 + ip % 2 ^ 24

/-- A Neighbor Advertisement of the port's own address; `flags` holds solicited and override. -/
def Drive.advertise (p : Port) (dstMac dst flags : Nat) (d : Drive) : Drive :=
  let ip := (d.port p).ip6
  d.sendMgmt p dstMac 0x86DD (icmp6 ip dst ([136, 0, 0, 0] ++ beBytes 4 (flags * 2 ^ 29) ++ beBytes 16 ip ++ [2, 1] ++ beBytes 6 (macOf p)))

/-- One gratuitous ARP and one unsolicited Neighbor Advertisement for each address in use (R422). -/
def Drive.announce (p : Port) (d : Drive) : Drive :=
  let x := d.port p
  let d := if x.ip4 ≠ 0 then d.sendMgmt p broadcast 0x0806 (arpBody 1 (macOf p) x.ip4 0 x.ip4) else d
  if x.ip6 ≠ 0 then d.advertise p allNodesMac allNodes 1 else d

/-- Asks for the MAC of an address (R424). -/
def Drive.solicit (p : Port) (ip : Nat) (d : Drive) : Drive :=
  let x := d.port p
  if ip / 2 ^ 32 = 0xFFFF then d.sendMgmt p broadcast 0x0806 (arpBody 1 (macOf p) x.ip4 0 (ip % 2 ^ 32))
  else d.sendMgmt p (solicitedMac ip) 0x86DD
    (icmp6 x.ip6 (solicited ip) ([135, 0, 0, 0, 0, 0, 0, 0] ++ beBytes 16 ip ++ [1, 1] ++ beBytes 6 (macOf p)))

/-! The neighbour table (R423, R424): at most 256 entries, least recently used first. -/

def keepNeighs (l : List Neigh) : List Neigh := l.drop (l.length - 256)

/-- A MAC is learnt. -/
def PortSt.learn (ip mac : Nat) (p : PortSt) : PortSt :=
  { p with neighs := keepNeighs ((p.neighs.filter fun n => n.ip != ip) ++ [{ ip := ip, mac := some mac, tries := 0 }]) }

/-- The next hop of an address on a port: the MAC given, else the neighbour table. -/
def PortSt.nextHop (given ip : Nat) (p : PortSt) : Option Nat :=
  if given ≠ 0 then some given
  else
    match p.neighs.find? fun n => n.ip == ip && n.mac.isSome with
    | some n => n.mac
    | none => none

/-- An entry is used: it becomes the most recently used one (R423). -/
def PortSt.used (ip : Nat) (p : PortSt) : PortSt :=
  { p with neighs := (p.neighs.filter fun n => n.ip != ip) ++ p.neighs.filter fun n => n.ip == ip }

/-- The first of three requests for the MAC of an address. -/
def Drive.resolve (p : Port) (ip : Nat) (d : Drive) : Drive :=
  (d.onPort p fun x =>
    { x with neighs := keepNeighs ((x.neighs.filter fun n => n.ip != ip) ++
        [{ ip := ip, mac := none, tries := 2, asked := d.clk.life }]) }).solicit p ip

/-- The port's own address of the family of `ip` (R421, R422). -/
def PortSt.ownFor (ip : Nat) (p : PortSt) : Nat := if ip / 2 ^ 32 = 0xFFFF then mapped p.ip4 else p.ip6

end Sys2Proof.Machine
end

