-- ==== Sys2Proof/Machine/Conn.lean ====
section
/-! DEFINITION. Connections: CM, CHALLENGE and HELLO, doorbells, the RC transport, congestion, migration between ports, the end of
a connection (03, 11). -/

namespace Sys2Proof.Machine

/-! The table of connections. -/

/-- A connection in state FREE (R133, R454). A connection brought up by PROVISION offers no responder resources; the drive then keeps up to
16 RDMA READs outstanding. (log 143 DESIGN CHOICE) -/
def Conn.fresh (i : Nat) : Conn :=
  { idx := i, state := .free, pending := false, preprov := false, dead := false, cmdErr := false, tenant := 0, qpn := 0, sPsn0 := 0, sPsn := 0, rPsn := 0
    path := { rqpn := 0, rip := 0, rmac := 0, rnrTimer := 0, ackTo := 0, rnrRetry := 0, retry := 0, portB := false, pmtu := 0 }
    lip := 0, since := 0
    resources := 16, challenge := [], dbKey := 0, authF := 0, sendX := 0, dbX := 0, adminSq := 0, adminCq := 0, eventCq := 0
    unacked := [], retries := 0, rnrs := 0, events := [], errs := [], errSeq := 0 }

/-- Connection `x` back in FREE: the counts of R133 stay until it leaves FREE, `CMDERR` until it is cleared. -/
def Conn.freed (x : Conn) : Conn :=
  { Conn.fresh x.idx with cmdErr := x.cmdErr, authF := x.authF, sendX := x.sendX, dbX := x.dbX }


/-- Connection `c`, a free one when the table has no entry for it. -/
def Xpt.conn (c : Nat) (x : Xpt) : Conn := (x.conns.find? fun y => y.idx == c).getD (.fresh c)


def Xpt.setConn (y : Conn) (x : Xpt) : Xpt := { x with conns := insertBy (·.idx) y (x.conns.filter fun z => z.idx != y.idx) }
def Xpt.setNet (y : ConnNet) (x : Xpt) : Xpt := { x with nets := insertBy (·.idx) y (x.nets.filter fun z => z.idx != y.idx) }
def Xpt.onNet (c : Nat) (f : ConnNet → ConnNet) (x : Xpt) : Xpt := x.setNet (f (x.net c))

/-- A QP number in no use, not 0 and not 1: open otherwise (R664). -/
def Xpt.newQpn (free : Nat) (x : Xpt) : Nat :=
  let cand := fun (j : Nat) => 2 + (Config.freeNat free + j) % (2 ^ 24 - 2)
  let j := ((List.range (x.conns.length + 1)).find? fun j => !(x.conns.any fun c => c.qpn == cand j)).getD 0
  cand j

/-! Alternate paths and migration (R443-R445). -/

/-- The alternate path of a connection is armed over a next hop. -/
def Drive.armed (c mac : Nat) (d : Drive) : Drive :=
  d.onXpt (Xpt.onNet c fun n => { n with alt := .armed, altMac := mac, altWait := false })

/-- The alternate path stays unarmed (R445). -/
def Drive.unarmed (c : Nat) (d : Drive) : Drive :=
  let b := (d.xpt.net c).altPortB
  (d.onXpt (Xpt.onNet c fun n => { n with alt := .none, altMac := 0, altWait := false })).raise 0x082
    (leBytes 2 c ++ leBytes 1 (if b then 1 else 0) ++ [1])

/-- Arms or replaces the alternate path of a connection; without a known next hop the drive asks for it first. (log 53 DEDUCED) -/
def Drive.arm (c : Nat) (portB : Bool) (ip mac : Nat) (d : Drive) : Drive :=
  let lip := (d.port (portOf portB)).ownFor ip
  let d := d.onXpt (Xpt.onNet c fun n =>
    { n with alt := .none, altPortB := portB, altIp := ip, altMac := mac, altGiven := mac, altLip := lip })
  match (d.port (portOf portB)).nextHop mac ip with
  | some m => (d.onPort (portOf portB) (PortSt.used ip)).armed c m
  | none => (d.onXpt (Xpt.onNet c fun n => { n with altWait := true })).resolve (portOf portB) ip

/-- Paths that a next hop which is now known completes: an alternate path that waits for it is armed, an armed one whose next hop nobody gave
takes it (R445), a primary path of PROVISION that waits for it can be used (R424). -/
def Drive.armWaiting (d : Drive) : Drive :=
  let d := (d.xpt.nets.filter fun n => n.altWait || (n.alt == .armed && n.altGiven == 0)).foldl (fun d n =>
    match (d.port (portOf n.altPortB)).nextHop 0 n.altIp with
    | some m => if n.alt == .armed && n.altMac == m then d else d.armed n.idx m
    | none => d) d
  (d.xpt.conns.filter fun x => x.stalled == 2).foldl (fun d x => match (d.port (portOf x.path.portB)).nextHop 0 x.path.rip with
    | some m => (d.onConn x.idx fun y => { y with hop := m, stalled := 0 }).release x.idx
    | none => d) d

/-- The packets of the unacknowledged requests, from the oldest unacknowledged PSN; those that have been sent before are sent again. -/
def Conn.backN (x : Conn) : List Packet :=
  (x.unacked.flatMap (Req.packets (mtuBytes x.path.pmtu))).map fun p => { p with again := !(x.txq.any fun q => !q.again && q.op != 0x11 && q.psn == p.psn) }

/-- Packets that a retransmission of the unacknowledged requests sends again. -/
def Conn.resend (x : Conn) : Nat := (x.backN.filter (·.again)).length

/-- Go-back-N from the oldest unacknowledged PSN (R440): behind what the drive sends as a responder. -/
def Drive.resend (c : Nat) (d : Drive) : Drive :=
  (d.onConn c fun x => { x with txq := (x.txq.filter fun p => p.op == 0x11 || p.op == 0x81) ++ x.backN }).release c

/-- Migrates a connection to its alternate path (R444): it sends there once that port's link is up (R446). -/
def Drive.migrate (c : Nat) (d : Drive) : Drive :=
  let n := d.xpt.net c
  let d := d.onConn c fun y =>
    { y with path := { y.path with portB := n.altPortB, rip := n.altIp, rmac := n.altMac }, lip := n.altLip, retries := 0, rnrs := 0
             stalled := if (d.port (portOf n.altPortB)).link.up then 0 else 1 }
  let line := (d.port (portOf n.altPortB)).lineRate
  let d := d.onXpt fun x => (x.onNet c fun y => { y with alt := .migrated, altPortB := !n.altPortB, rate := min y.rate line }).setConn (x.conn c)
  let d := d.onXpt fun x => { x with migr := wrap32 (x.migr + 1) }
  (d.raise 0x082 (leBytes 2 c ++ leBytes 1 (if n.altPortB then 1 else 0) ++ [0])).resend c

/-! The end of a connection (R130, R131). -/

/-- The queue pair of an ending connection is lost on every path: no request of it is answered any more, entries not yet in their
contexts never execute, and commands that need more from the host fail. -/
def Drive.loseConn (c : Nat) (d : Drive) : Drive :=
  let d := d.onConn c fun y => { y with dead := true, unacked := [], txq := [] }
  ((d.onKvx fun k => { k with ctxs := k.ctxs.filter fun t => !(t.conn == c && !t.arrived) }).pump c).wake

/-- A connection ends: it is CLOSING, nothing is fetched any more, its watches and waiting event CQEs go; its outstanding RDMA READs are
still answered, so that commands already fetched run to their normal end (R131). `reason` as R600 codes it. (log 48 DEDUCED) -/
def Drive.endConn (c reason : Nat) (d : Drive) : Drive :=
  match d.conn? c with
  | none => d
  | some x =>
    if x.state == .awaitingHello || x.state == .ready then
      let read := fun (r : Req) => match r.kind with
        | .read _ => true
        | _ => false
      let d := d.onConn c fun y => { y with state := .closing, unacked := y.unacked.filter read, events := []
                                            txq := y.txq.filter fun p => [0x0C, 0x11, 0x81].contains p.op }
      let d := (d.kvx.watches.filter fun w => w.conn == c).foldl (fun d w => d.endWatch w.id false) d
      let d := if reason = 1 then d.loseConn c else d
      (d.raise 0x081 (leBytes 2 c ++ leBytes 1 reason)).wake
    else if x.pending then d.onXpt (Xpt.setConn x.freed)
    else d

/-- Every fetched command of the connection has ended. -/
def Drive.connEnded (c : Nat) (d : Drive) : Bool := d.kvx.ctxs.all fun t => t.conn != c || t.settled

/-- A CLOSING connection whose commands have ended is freed with its queues (R131, R269). -/
def Drive.freeConn (c : Nat) (d : Drive) : Drive :=
  match d.conn? c with
  | none => d
  | some x =>
    if x.state == .closing && d.connEnded c then
      let d := d.onHq fun h => { h with sqs := h.sqs.filter (·.conn != c), cqs := h.cqs.filter (·.conn != c) }
      let d := d.onKvx fun k => { k with ctxs := k.ctxs.filter fun t => t.conn != c }
      let d := d.onXpt fun y => { y.setConn x.freed with nets := y.nets.filter fun n => n.idx != c }
      d.wake
    else d

/-- Retries are exhausted: an armed connection migrates, another one ends, and one that is ending is lost (R130, R444). -/
def Drive.exhausted (c : Nat) (d : Drive) : Drive :=
  if (d.xpt.net c).alt == .armed then d.migrate c
  else if d.isClosing c then d.loseConn c
  else d.endConn c 1

/-- One more retry, or their end (R440). (log 49 PRESUMED) -/
def Drive.retry (c : Nat) (d : Drive) : Drive :=
  let x := d.xpt.conn c
  if x.unacked.isEmpty then d
  else if x.retries ≥ x.path.retry then d.exhausted c
  else (d.onConn c fun y => { y with retries := y.retries + 1 }).resend c

/-- The address of a next hop has not answered (R424, R445): `NETx_NHMAC`; without it an alternate path stays, or becomes, unarmed, and a
primary path of PROVISION cannot be used, as when its retries are exhausted. (log 160 DEDUCED) -/
def Drive.resolveFails (p : Port) (ip : Nat) (d : Drive) : Drive :=
  let mac := (d.port p).nhMac
  let d := (d.xpt.nets.filter fun n => (n.altWait || (n.alt == .armed && n.altGiven == 0)) && n.altIp == ip && portOf n.altPortB == p).foldl
    (fun d n => if mac = 0 then d.unarmed n.idx else d.armed n.idx mac) d
  (d.xpt.conns.filter fun x => x.stalled == 2 && x.path.rip == ip && portOf x.path.portB == p).foldl
    (fun d x => if mac = 0 then d.exhausted x.idx else (d.onConn x.idx fun y => { y with hop := mac, stalled := 0 }).release x.idx) d
/-! CHALLENGE and HELLO (R93-R100). -/

/-- The CHALLENGE message (R94). -/
def challengeMsg (x : Conn) (sqMax cqMax : Nat) : Bytes :=
  [1, 1] ++ leBytes 2 128 ++ leBytes 2 x.idx ++ leBytes 2 0 ++ leBytes 8 Config.identity ++ padTo 32 x.challenge
    ++ leBytes 8 Config.doorbellBase ++ leBytes 4 x.dbKey ++ leBytes 4 0x40000 ++ leBytes 2 sqMax ++ leBytes 2 cqMax ++ fill 60 0

/-- A connection enters AWAITING_HELLO and sends its CHALLENGE (R93). -/
def Drive.challenge (c : Nat) (preprov : Bool) (d : Drive) : Drive :=
  let r := d.draw 36
  let d := r.2.onConn c fun y =>
    { y with state := .awaitingHello, pending := false, preprov := preprov, challenge := r.1.take 32, dbKey := leNat (r.1.drop 32)
             since := d.clk.life }
  d.send c .send .challenge 0 0 (challengeMsg (d.xpt.conn c) d.xpt.sqMax d.xpt.cqMax)

/-- The response that HELLO must carry (R96). -/
def helloResponse (key : Bytes) (x : Conn) (h : Bytes) : Bytes :=
  hmacSha256 key (padTo 32 x.challenge ++ leBytes 2 x.idx ++ leBytes 2 0 ++ leBytes 8 Config.identity ++ slice h 4 4 ++ slice h 0x28 0x58)

/-- HELLO passes the checks of R97 that look at the message alone. -/
def helloShape (h : Bytes) : Bool :=
  h.length == 128 && byteAt h 0 == 2 && byteAt h 1 == 1 && le h 2 2 == 128 && (slice h 0x44 0x3C).all (· == 0)
    && decide (16 ≤ le h 0x34 2) && decide (le h 0x34 2 ≤ 4096) && decide (16 ≤ le h 0x36 2) && decide (le h 0x36 2 ≤ 4096)
    && le h 0x28 8 % 128 == 0 && le h 0x38 8 % 32 == 0

/-- A HELLO fails (R97, R98). -/
def Drive.helloFails (c claimed : Nat) (d : Drive) : Drive :=
  ((d.onConn c fun y => { y with authF := wrap32 (y.authF + 1) }).raise 0x080 (leBytes 2 c ++ leBytes 4 claimed)).endConn c 2

/-- A queue ID for a new SQ or CQ (R102). -/
def Hq.freeSq (h : Hq) : Option Nat := lowestFree 0x4000 (h.sqs.map (·.id))
def Hq.freeCq (h : Hq) : Option Nat := lowestFree 0x4000 (h.cqs.map (·.id))

/-- A new SQ (R104, R123, R407). -/
def Drive.newSq (id conn : Nat) (admin strict : Bool) (cq addr rkey depth weight credit : Nat) (d : Drive) : Drive :=
  let ser := d.kvx.domSer + 1
  let s : Sq :=
    { id := id, conn := conn, admin := admin, strict := strict, cq := cq, addr := addr, rkey := rkey, depth := depth, head := 0
      fetched := 0, tail := 0, dbSeq := 0, weight := weight, credit := min credit (depth - 1)
      roundCredit := if admin then 255 else weight, limit := min credit (depth - 1)
      faulted := false, freeze := none, closing := false, segs := [], recent := [], stale := 0, bad := 0, serial := ser, fresh := 0 }
  (d.onKvx fun k => { k with domSer := ser }).onHq fun h => { h with sqs := insertBy (·.id) s h.sqs }

/-- A new CQ (R104, R127). -/
def Drive.newCq (id conn : Nat) (admin : Bool) (addr rkey depth time count : Nat) (d : Drive) : Drive :=
  let q : Cq := { id := id, conn := conn, admin := admin, addr := addr, rkey := rkey, depth := depth, head := 0, tail := 0, dbSeq := 0
                  nen := true, time := time, count := count, since := 0, firstAt := 0, faulted := false, stale := 0, bad := 0, evLost := 0 }
  d.onHq fun h => { h with cqs := insertBy (·.id) q h.cqs }

/-- A valid HELLO (R99): the admin queues, READY, the HELLO completion and its notification. -/
def Drive.helloOk (c tenant sq cq : Nat) (h : Bytes) (d : Drive) : Drive :=
  let d := d.newSq sq c true true cq (le h 0x28 8) (le h 0x30 4) (le h 0x34 2) 255 0
  let d := d.newCq cq c true (le h 0x38 8) (le h 0x40 4) (le h 0x36 2) 1 1
  let d := d.onConn c fun y => { y with state := .ready, tenant := tenant, adminSq := sq, adminCq := cq, eventCq := cq }
  let b := leBytes 2 0 ++ leBytes 2 sq ++ leBytes 2 0 ++ leBytes 2 0x10 ++ leBytes 2 sq ++ leBytes 2 cq ++ leBytes 2 c ++ [1] ++ fill 17 0
  (d.appendCqe cq b none).notify cq 2

/-- A request that the drive never accepts (R439): NAK Remote Access Error or Invalid Request, and the end of the connection. As the first
message of a connection it is a failed HELLO too (R98), after which nothing further is sent. -/
def Drive.invalid (c : Nat) (opcode : Byte) (remoteAccess : Bool) (d : Drive) : Drive :=
  match d.conn? c with
  | none => d
  | some x =>
    let d := (d.onXpt fun x => { x with badReq := wrap32 (x.badReq + 1) }).raise 0x083 (leBytes 2 c ++ [opcode])
    if x.state == .awaitingHello then d.helloFails c 0 else (d.reply c x.rPsn (if remoteAccess then 0x62 else 0x61)).endConn c 6

/-- A SEND arrives (R95-R100). One longer than 128 bytes is never accepted (R439). -/
def Drive.helloArrives (c : Nat) (h : Bytes) (d : Drive) : Drive :=
  match d.conn? c with
  | none => d
  | some x =>
    if decide (128 < h.length) && x.state != .closing && x.state != .free then d.invalid c 0x04 false
    else if x.state == .ready || x.state == .closing then
      (d.onConn c fun y => { y with sendX := wrap32 (y.sendX + 1) }).raise 0x084 (leBytes 2 c) |>.taken c h.length
    else if x.state == .awaitingHello then
      let claimed := le h 4 4
      match d.kvx.store.tenant? claimed, d.hq.freeSq, d.hq.freeCq with
      | some t, some sq, some cq =>
        if helloShape h && slice h 8 32 == helloResponse t.key x h then (d.taken c 128).helloOk c claimed sq cq h else d.helloFails c claimed
      | _, _, _ => d.helloFails c claimed
    else d

/-! CM and the management path (R89-R92, R133, R443). -/

/-- CM exchanges are accepted: a mode that serves hosts, no park in progress (R530, R534, R548). -/
def Drive.cmOpen (d : Drive) : Bool :=
  d.pwr.serving && (match d.pwr.change with
    | some ch => ch.target != 8
    | none => true)

/-- The code of a path MTU, 0 for one that is not accepted (R89, R133). -/
def pmtuCode (bytes : Nat) : Nat := if bytes = 1024 then 3 else if bytes = 2048 then 4 else if bytes = 4096 then 5 else 0

/-- No connection index is in state FREE. -/
def Xpt.allTaken (x : Xpt) : Bool := decide (4096 ≤ (x.conns.filter fun y => y.state != .free || y.pending).length)

/-- The checks of R89, R427 and R530 on a REQ, in the order of the table of R89. With `XPT_CMPORT.PORT` 0 no service ID is right.
(log 47 DESIGN CHOICE) -/
def Drive.reqFault (r : CmReq) (d : Drive) : Option RejReason :=
  if d.xpt.cmPort = 0 ∨ r.serviceId.toNat ≠ 0x1060000 + d.xpt.cmPort then some .serviceId
  else if !r.rc then some .transport
  else if pmtuCode r.pmtu = 0 ∨ (d.port r.port).maxFrm < r.pmtu + 102 then some .pathMtu
  else if r.resources = 0 ∨ !d.cmOpen then some .consumer
  else if d.xpt.allTaken then some .noQp
  else none

/-- A REQ that is accepted: it passes every check and names a FREE index. -/
def Drive.reqOk (r : CmReq) (d : Drive) : Bool :=
  let x := d.xpt.conn r.index
  d.pwr.serving && d.reqFault r == none && decide (r.index < 4096) && x.state == .free && !x.pending

/-- A CM message is sent on a port, or waits while flow control holds it (R435). -/
def Drive.cmSend (p : Port) (m : CmMsg) (d : Drive) : Drive :=
  if (d.port p).flow.held.isSome then d.onXpt fun x => { x with cmWait := x.cmWait ++ [(onB p, m)] }
  else d.onXpt fun x => { x with cmOut := x.cmOut ++ [m] }

/-- A REQ (R89, R90): answered with REP or REJ in a mode that serves hosts. Until its RTU the index stays FREE to the registers.
(log 110 DESIGN CHOICE) -/
def Drive.cmReq (r : CmReq) (d : Drive) : Drive :=
  if d.reqOk r then
    let qpn := d.xpt.newQpn d.free
    let psn := Config.freeNat (d.free + 1) % 2 ^ 24
    let d := { d with free := d.free + 2 }
    let y : Conn :=
      { (d.xpt.conn r.index).freed with
        pending := true, qpn := qpn, sPsn0 := psn, sPsn := psn, rPsn := r.psn.toNat, resources := r.resources
        lip := (d.port r.port).ownFor r.ip.toNat
        path := { rqpn := r.qpn.toNat, rip := r.ip.toNat, rmac := r.mac.toNat, rnrTimer := r.rnrTimer.toNat, ackTo := r.ackTo.toNat
                  rnrRetry := r.rnrRetry.toNat, retry := r.retry.toNat, portB := (onB r.port), pmtu := pmtuCode r.pmtu } }
    let d := d.onXpt fun x =>
      (x.setConn y).setNet { ConnNet.fresh r.index with altPortB := !(onB r.port), rate := (d.port r.port).lineRate }
    let d := d.cmSend r.port (.rep r.index qpn psn)
    match r.alt with
    | some a => if a.port ≠ r.port then d.arm r.index (onB a.port) a.ip.toNat 0 else d
    | none => d
  else if d.pwr.serving then
    match d.reqFault r with
    | some x => d.cmSend r.port (.rej x)
    | none => d
  else d

/-- RTU: the connection of an accepted REQ leaves FREE, its counts at 0 (R101, R133). -/
def Drive.cmRtu (c : Nat) (d : Drive) : Drive :=
  if (d.xpt.conn c).pending then (d.onConn c fun y => { y with authF := 0, sendX := 0, dbX := 0 }).challenge c false else d

/-- A command of `XPT_CCMD` (R133): 1 HOLD, 2 PROVISION, 3 CLOSE, 4 RELEASE. Between a REQ and its RTU the index is not FREE to HOLD.
(log 110 DESIGN CHOICE) -/
def Drive.connCmd (c cmd : Nat) (d : Drive) : Drive :=
  let x := d.xpt.conn c
  let bad := d.onXpt fun y => y.setConn { y.conn c with cmdErr := true }
  match cmd with
  | 1 =>
    if x.state == .free && !x.pending then
      let qpn := d.xpt.newQpn d.free
      let d := { d with free := d.free + 1 }
      d.onXpt fun y => (y.setConn { Conn.fresh c with state := .held, cmdErr := x.cmdErr, qpn := qpn }).setNet { ConnNet.fresh c with rate := d.portA.lineRate }
    else bad
  | 2 =>
    if x.state == .held && decide (3 ≤ x.path.pmtu) && decide (x.path.pmtu ≤ 5) then
      let n := d.xpt.net c
      let d := d.onXpt (Xpt.onNet c fun n => { n with rate := (d.port (portOf x.path.portB)).lineRate, altPortB := !x.path.portB })
      let d := if n.altArm then d.arm c (!x.path.portB) n.altIp n.altMac else d
      let p := portOf x.path.portB
      let d := d.onConn c fun y => { y with lip := (d.port p).ownFor x.path.rip }
      let d := match (d.port p).nextHop x.path.rmac x.path.rip with
        | some m => (d.onPort p (PortSt.used x.path.rip)).onConn c fun y => { y with hop := m }
        | none => (d.resolve p x.path.rip).onConn c fun y => { y with stalled := 2 }
      d.challenge c true
    else bad
  | 3 => if x.state == .awaitingHello || x.state == .ready then d.endConn c 3 else if x.state == .closing then d else bad
  | 4 => if x.state == .held then d.onXpt fun y => (y.setConn x.freed).setNet (.fresh c) else bad
  | _ => bad

/-! Doorbells (R120, R121, R218, R261). -/

/-- `seq` is newer than the last one (R120). -/
def newer (seq last : Nat) : Bool := let n := (seq + 2 ^ 32 - last) % 2 ^ 32; n != 0 && decide (n < 0x80000000)

/-- The head that the pointer test of an SQ uses (R261). -/
def Sq.judgeHead (s : Sq) : Nat :=
  match s.freeze with
  | some f => if s.admin then s.head else f.failAbs
  | none => s.head

/-- How far ring index `ptr` lies after absolute position `h`. -/
def ringDist (depth h ptr : Nat) : Nat := (ptr + depth - h % depth) % depth

/-- How far the tail of an SQ lies after the head that its doorbells are judged by (R120, R261). -/
def Sq.tailDist (s : Sq) : Nat := (s.tail - s.judgeHead) % s.depth

/-- The write is discarded and counted in `XPT_CDBX` (R100, R120), and acknowledged. As the first message of a connection it is a failed
HELLO too (R98). -/
def Drive.dbDiscard (c n : Nat) (d : Drive) : Drive :=
  let e := d.onConn c fun y => { y with dbX := wrap32 (y.dbX + 1) }
  if (d.xpt.conn c).state == .awaitingHello then e.helloFails c 0 else e.taken c n

/-- An SQ doorbell write of connection `c` (R120). -/
def Drive.sqDoorbell (c off : Nat) (data : Bytes) (d : Drive) : Drive :=
  match d.conn? c, d.sq? (off / 8) with
  | none, _ => d
  | some _, none => d.dbDiscard c data.length
  | some x, some s =>
    if data.length ≠ 8 ∨ off % 8 ≠ 0 ∨ le data 2 2 ≠ 0 ∨ s.conn ≠ c ∨ x.state ≠ .ready then d.dbDiscard c data.length
    else
      let seq := le data 4 4
      let ptr := le data 0 2
      let h := s.judgeHead
      let d := d.taken c 8
      if !newer seq s.dbSeq then d.onSq s.id fun s => { s with stale := wrap32 (s.stale + 1) }
      else if ptr ≥ s.depth ∨ ringDist s.depth h ptr < s.tailDist then
        (d.onSq s.id fun s => { s with bad := wrap32 (s.bad + 1) }).raiseConn 0x092 c s.id (leBytes 2 s.id ++ leBytes 1 0)
      else
        let tail := s.tail + (ringDist s.depth h ptr - s.tailDist)
        -- doorbells of entries that a RESUME may yet fetch again are kept (R218, R275)
        let low := d.kvx.ctxs.foldl (fun m x => if x.sq = s.id then min m x.abs else m) (min h s.fetched)
        (d.onSq s.id fun s =>
          { s with tail := tail, dbSeq := seq
                   segs := if s.tail < tail then (s.segs.filter fun g => low < g.1) ++ [(tail, d.kvx.doorSeq + 1)] else s.segs }).onKvx
          fun k => { k with doorSeq := k.doorSeq + 1 }

/-- A CQ doorbell write of connection `c`. -/
def Drive.cqDoorbell (c off : Nat) (data : Bytes) (d : Drive) : Drive :=
  match d.conn? c, d.cq? ((off - 0x20000) / 8) with
  | none, _ => d
  | some _, none => d.dbDiscard c data.length
  | some x, some q =>
    if data.length ≠ 8 ∨ off % 8 ≠ 0 ∨ off < 0x20000 ∨ le data 2 2 ≠ 0 ∨ q.conn ≠ c ∨ x.state ≠ .ready then d.dbDiscard c data.length
    else
      let seq := le data 4 4
      let ptr := le data 0 2
      let d := d.taken c 8
      if !newer seq q.dbSeq then d.onCq q.id fun s => { s with stale := wrap32 (s.stale + 1) }
      else if ptr ≥ q.depth ∨ ringDist q.depth q.head ptr > q.tail - q.head then
        (d.onCq q.id fun s => { s with bad := wrap32 (s.bad + 1) }).raiseConn 0x092 c q.id (leBytes 2 q.id ++ leBytes 1 1)
      else d.onCq q.id fun s => { s with head := s.head + ringDist s.depth s.head ptr, dbSeq := seq }

/-! Congestion (R441, R442). -/

/-- A packet marked CE: a CNP goes to the connection's remote QP (R441). -/
def Drive.ceMarked (c : Nat) (d : Drive) : Drive :=
  let n := d.xpt.net c
  let quiet := match n.lastCnp with
    | some t => decide (d.clk.life < t + 1000 * d.xpt.cnpUs)
    | none => false
  if (d.conn? c).isSome && d.xpt.npEn && !quiet then
    (d.onXpt (Xpt.onNet c fun n => { n with lastCnp := some d.clk.life })).sendPacket c { op := 0x81, psn := 0, ext := [], data := fill 16 0 }
  else d

/-- A CNP (R442). -/
def Drive.cnpArrives (c : Nat) (d : Drive) : Drive :=
  if (d.conn? c).isNone then d
  else
    d.onXpt fun x =>
      { (x.onNet c fun n =>
          { n with cnps := wrap32 (n.cnps + 1), lastDec := some d.clk.life
                   rate := if x.rpEn then max (10 * x.minRate) (n.rate * (8 - x.dec) / 8) else n.rate }) with
        cnpRx := wrap32 (x.cnpRx + 1) }

/-- An interval without a CNP (R442). -/
def Drive.rateRecovers (c : Nat) (d : Drive) : Drive :=
  let early := match (d.xpt.net c).lastDec with
    | some t => decide (d.clk.life < t + 1000 * d.xpt.incUs)
    | none => false
  if (d.conn? c).isNone || !d.xpt.rpEn || early then d
  else
    let line := (d.port (portOf (d.xpt.conn c).path.portB)).lineRate
    d.onXpt fun x => x.onNet c fun n => { n with rate := min line (n.rate + 10 * x.inc), lastDec := some d.clk.life }

/-- The next hop of an armed path is found again: the MAC given, else a new request for the address (R424, R445). -/
def Drive.refreshHop (n : ConnNet) (d : Drive) : Drive :=
  let p := portOf n.altPortB
  match (d.port p).nextHop n.altGiven n.altIp with
  | some m =>
    let d := (d.onPort p (PortSt.used n.altIp)).onXpt (Xpt.onNet n.idx fun n => { n with altMac := m })
    if n.altGiven = 0 then d.solicit p n.altIp else d
  | none => d.resolve p n.altIp

/-- The next hops of all armed paths, every 60 s (R445). -/
def Drive.refreshHops (d : Drive) : Drive :=
  if d.clk.life < d.xpt.hopAt + 60000000000 then d
  else
    (d.xpt.nets.filter fun n => n.alt == .armed).foldl (fun d n => d.refreshHop n) (d.onXpt fun x => { x with hopAt := d.clk.life })

/-! Rows. -/

def execCmReq (r : CmReq) (s : State) : Host.Outcome State Fault Refusal := .next { s with d := s.d.cmReq r }

/-- R101 step 3. -/
def execCmRtu (conn : Nat) (s : State) : Host.Outcome State Fault Refusal :=
  .next { s with d := s.d.cmRtu conn }

def execCmDreq (conn : Nat) (s : State) : Host.Outcome State Fault Refusal := .next { s with d := s.d.endConn conn 0 }

/-- R443: a LAP is answered with APR and arms a path on the port that the connection is not using. Its next hop is found by R424, in which no
CM message names one for an alternate path. -/
def execCmLap (conn : Nat) (p : AltPath) (s : State) : Host.Outcome State Fault Refusal :=
  .next { s with d :=
    match s.d.conn? conn with
    | some x =>
      if x.state == .awaitingHello || x.state == .ready then
        let d := s.d.cmSend (portOf x.path.portB) (.apr conn)
        if onB p.port != x.path.portB then d.arm conn (onB p.port) p.ip.toNat 0 else d
      else s.d
    | none => s.d }

def execHello (conn : Nat) (data : Bytes) (s : State) : Host.Outcome State Fault Refusal :=
  .next { s with d := s.d.helloArrives conn data }

/-- R98. -/
def execHelloTimeout (conn : Nat) (s : State) : Host.Outcome State Fault Refusal :=
  .next { s with d :=
    let x := s.d.xpt.conn conn
    if x.state == .awaitingHello && decide (x.since + 1000000 * s.d.xpt.helloTo ≤ s.d.clk.life) then s.d.helloFails conn 0 else s.d }

/-- R100. -/
def execSendAfterHello (conn : Nat) (s : State) : Host.Outcome State Fault Refusal :=
  .next { s with d :=
    if (s.d.xpt.conn conn).state == .ready || (s.d.xpt.conn conn).state == .closing then
      (s.d.onConn conn fun y => { y with sendX := wrap32 (y.sendX + 1) }).raise 0x084 (leBytes 2 conn) |>.taken conn 0
    else s.d }

def execSqDoorbell (conn off : Nat) (data : Bytes) (s : State) : Host.Outcome State Fault Refusal :=
  .next { s with d := s.d.sqDoorbell conn off data }

def execCqDoorbell (conn off : Nat) (data : Bytes) (s : State) : Host.Outcome State Fault Refusal :=
  .next { s with d := s.d.cqDoorbell conn off data }

/-- R439. -/
def execInvalidRequest (conn : Nat) (opcode : Byte) (remoteAccess : Bool) (s : State) : Host.Outcome State Fault Refusal :=
  .next { s with d := s.d.invalid conn opcode remoteAccess }

def execRoceAck (conn : Nat) (psn : BitVec 24) (s : State) : Host.Outcome State Fault Refusal :=
  .next { s with d := s.d.takeAck conn psn.toNat }

/-- R440: a NAK acknowledges what precedes its PSN. -/
def execNakSequence (conn : Nat) (psn : BitVec 24) (s : State) : Host.Outcome State Fault Refusal :=
  .next { s with d :=
    if (s.d.conn? conn).isNone then s.d
    else
      let n := (s.d.xpt.conn conn).retries
      let d := s.d.takeAck conn ((psn.toNat + 2 ^ 24 - 1) % 2 ^ 24)
      let kept := (d.xpt.conn conn).unacked.length == (s.d.xpt.conn conn).unacked.length
      ((d.onConn conn fun y => { y with retries := if kept then n else 0 }).onXpt fun x => { x with nakRx := wrap32 (x.nakRx + 1) }).retry conn }

/-- R440, R133: RNR retries, 7 unlimited. -/
def execRnrNak (conn : Nat) (_psn : BitVec 24) (s : State) : Host.Outcome State Fault Refusal :=
  .next { s with d :=
    match s.d.conn? conn with
    | none => s.d
    | some x =>
      let d := s.d.onXpt fun x => { x with nakRx := wrap32 (x.nakRx + 1) }
      if x.path.rnrRetry = 7 then d.resend conn
      else if x.rnrs ≥ x.path.rnrRetry then d.exhausted conn
      else (d.onConn conn fun y => { y with rnrs := y.rnrs + 1 }).resend conn }

def execAckTimeout (conn : Nat) (s : State) : Host.Outcome State Fault Refusal := .next { s with d := s.d.retry conn }

/-- R440: a duplicate is acknowledged again, as all that came before the expected PSN; one ahead of it is answered with NAK Sequence Error. -/
def execDuplicateRequest (conn : Nat) (_psn : BitVec 24) (ahead : Bool) (s : State) : Host.Outcome State Fault Refusal :=
  .next { s with d :=
    match s.d.conn? conn with
    | none => s.d
    | some x => if ahead then s.d.reply conn x.rPsn 0x60 else s.d.reply conn ((x.rPsn + 2 ^ 24 - 1) % 2 ^ 24) 0x1F }

def execConnectionFree (conn : Nat) (s : State) : Host.Outcome State Fault Refusal := .next { s with d := s.d.freeConn conn }

def execCeMarkedPacket (conn : Nat) (s : State) : Host.Outcome State Fault Refusal := .next { s with d := s.d.ceMarked conn }

def execCnpReceive (conn : Nat) (s : State) : Host.Outcome State Fault Refusal := .next { s with d := s.d.cnpArrives conn }

def execRateRecoveryTimer (conn : Nat) (s : State) : Host.Outcome State Fault Refusal := .next { s with d := s.d.rateRecovers conn }

def execAlternatePathPacket (conn : Nat) (s : State) : Host.Outcome State Fault Refusal :=
  .next { s with d := if (s.d.xpt.net conn).alt == .armed then s.d.migrate conn else s.d }

def execNextHopRefresh (s : State) : Host.Outcome State Fault Refusal := .next { s with d := s.d.refreshHops }

/-- R126, R185, R206, R268. -/
def execRdmaWriteRefused (conn : Nat) (psn : BitVec 24) (s : State) : Host.Outcome State Fault Refusal :=
  .next { s with d := s.d.writeRefused conn psn.toNat }

end Sys2Proof.Machine
end

