-- ==== Sys2Proof/Machine/Flash.lean ====
section
/-! DEFINITION. The configuration flash: erased and programmed bytes, boot records, image headers and their verification,
configuration images, the preload area, the birth area (15). -/

namespace Sys2Proof.Machine

/-! Bytes of the flash (R538). An unlisted byte is erased and reads 0xFF. -/

/-- The byte at an address. (log 11 DEDUCED) -/
def flashByte (a : Nat) : List Host.Cell → Byte
  | [] => 0xFF
  | c :: cs => if c.1 = a then c.2 else flashByte a cs

/-- Sets the byte at an address; an erased byte is not listed. -/
def flashSet (a : Nat) (b : Byte) : List Host.Cell → List Host.Cell
  | [] => if b = 0xFF then [] else [(a, b)]
  | c :: cs =>
    if c.1 < a then c :: flashSet a b cs
    else if c.1 = a then (if b = 0xFF then cs else (a, b) :: cs)
    else (if b = 0xFF then c :: cs else (a, b) :: c :: cs)

/-- The canonical form: addresses strictly rising, no erased byte listed. -/
def cellsWf : List Host.Cell → Bool
  | [] => true
  | [c] => c.2 != 0xFF
  | c :: d :: cs => c.2 != 0xFF && decide (c.1 < d.1) && cellsWf (d :: cs)

def Nv.wf (n : Nv) : Bool := cellsWf n.flash && decide (n.fuses ≤ 256)

/-- `n` bytes from an address. -/
def Nv.read (a n : Nat) (v : Nv) : Bytes := (List.range n).map fun i => flashByte (a + i) v.flash

/-- Programs bytes from an address on. -/
def Nv.write (a : Nat) (bs : Bytes) (v : Nv) : Nv :=
  { v with flash := (numbered bs).foldl (fun m x => flashSet (a + x.1) x.2 m) v.flash }

/-- Erases `n` bytes from an address on. -/
def Nv.erase (a n : Nat) (v : Nv) : Nv := { v with flash := v.flash.filter fun c => c.1 < a || a + n ≤ c.1 }

/-- Blows fuses up to a level; a blown fuse never heals and there are 256 (R545). -/
def Nv.blow (level : Nat) (v : Nv) : Nv := { v with fuses := min 256 (max v.fuses level) }

/-! Areas (R538). -/

def birthBase : Nat := 0x20000
def preloadBase : Nat := 0x60000
def slotSize : Nat := 24 * 2 ^ 20
def slotBase (s : Nat) : Nat := 0x100000 + slotSize * s
def bankBase (b : Nat) : Nat := 0x3100000 + 2 ^ 20 * b
def calBase (c : Nat) : Nat := 0x3500000 + 2 ^ 20 * c

/-- The areas that the management bus may erase: base and size (R561). -/
def areaOf (a : Nat) : Option (Nat × Nat) :=
  if a ≤ 1 then some (slotBase a, slotSize) else if a = 2 then some (preloadBase, 512 * 1024) else none

/-! Boot records (R540-R542). -/

structure BootRec where
  slot      : Nat
  trial     : Bool
  recovered : Bool
  gen       : Nat
  trials    : Nat
  prevSlot  : Nat
  rev       : Nat
  prevRev   : Nat
  actLife   : Nat
  deriving DecidableEq, Repr

def BootRec.bytes (r : BootRec) : Bytes :=
  let b := ascii "CRKB" ++ leBytes 2 1 ++ leBytes 1 r.slot ++ leBytes 1 (bitAt 0 r.trial + bitAt 1 r.recovered) ++ leBytes 4 r.gen
    ++ leBytes 1 r.trials ++ leBytes 1 r.prevSlot ++ leBytes 2 0 ++ leBytes 8 r.rev ++ leBytes 8 r.prevRev ++ leBytes 8 r.actLife
    ++ fill 20 0
  b ++ leBytes 4 (crc32 b).toNat

/-- The record in a copy, when the copy is valid. -/
def Nv.bootCopy (k : Nat) (v : Nv) : Option BootRec :=
  let b := v.read (0x10000 * k) 64
  if b.take 4 == ascii "CRKB" && le b 4 2 == 1 && decide (byteAt b 6 ≤ 1) && le b 0x3C 4 == (crc32 (b.take 60)).toNat then
    some { slot := byteAt b 6, trial := bit (byteAt b 7) 0, recovered := bit (byteAt b 7) 1, gen := le b 8 4, trials := byteAt b 0xC
           prevSlot := byteAt b 0xD, rev := le b 0x10 8, prevRev := le b 0x18 8, actLife := le b 0x20 8 }
  else none

/-- The copy that decides and its record (R541). -/
def Nv.deciding (v : Nv) : Option (Nat × BootRec) :=
  match v.bootCopy 0, v.bootCopy 1 with
  | some a, some b => if a.gen < b.gen then some (1, b) else some (0, a)
  | some a, none => some (0, a)
  | none, some b => some (1, b)
  | none, none => none

/-- The deciding record; without one, as if a record named slot 0 with TRIAL clear (R541). -/
def Nv.boot (v : Nv) : BootRec :=
  match v.deciding with
  | some d => d.2
  | none => { slot := 0, trial := false, recovered := false, gen := 0, trials := 0, prevSlot := 0, rev := 0, prevRev := 0, actLife := 0 }

/-- Writes a boot record into the copy that does not decide, one generation up (R542). (log 104 DEDUCED) -/
def Nv.writeBoot (r : BootRec) (v : Nv) : Nv :=
  let copy := match v.deciding with
    | some (k, _) => 1 - k
    | none => 0
  (v.erase (0x10000 * copy) 0x10000).write (0x10000 * copy) ({ r with gen := v.boot.gen + 1 } : BootRec).bytes

/-- The slot that the deciding record does not name. -/
def Nv.inactive (v : Nv) : Nat := 1 - v.boot.slot

/-! Images (R543, R544). -/

/-- The first 4 KiB of a slot. -/
def Nv.header (s : Nat) (v : Nv) : Bytes := v.read (slotBase s) 4096

/-- Check 1 of R544. -/
def headerOk (h : Bytes) : Bool :=
  let body := le h 0x10 4
  let zero := fun (o n : Nat) => (slice h o n).all (· == 0)
  h.take 4 == ascii "CRKI" && le h 4 2 == 1 && decide (byteAt h 6 ≤ 1) && body % 4096 == 0 && decide (4096 ≤ body)
    && decide (body ≤ slotSize - 4096) && zero 7 1 && zero 0x1A 6 && zero 0x50 0xB0 && zero 0x160 0xEA0

def headerRev (h : Bytes) : Nat := le h 8 8
def headerLevel (h : Bytes) : Nat := le h 0x14 2

/-- The check of R544 that an image fails, 0 when it verifies. -/
def Nv.verify (s : Nat) (v : Nv) : Nat :=
  let h := v.header s
  if !headerOk h then 1
  else if headerLevel h < v.fuses then 2
  else if sha384 (v.read (slotBase s + 4096) (le h 0x10 4)) ≠ slice h 0x20 48 then 3
  else if ecdsaVerify (Config.signKey (byteAt h 6)) (sha384 (h.take 256)) (beNat (slice h 0x100 48)) (beNat (slice h 0x130 48)) then 0
  else 4

/-- The reason FWVERIFY reports for a failed check (R164, R544). -/
def verifyReason (check : Nat) : Nat := if check = 1 then 3 else if check = 2 then 2 else 1

/-- The configuration format of a slot's image (R543). -/
def Nv.format (s : Nat) (v : Nv) : Nat := le (v.header s) 0x16 2

/-- The revision of a slot's header, 0 when check 1 fails. -/
def Nv.slotRev (s : Nat) (v : Nv) : Nat := if headerOk (v.header s) then headerRev (v.header s) else 0

/-- The slot whose image runs: the active slot, but the previous one while an activation is pending. -/
def Nv.runSlot (stage : Nat) (v : Nv) : Nat := if stage = 2 then v.boot.prevSlot else v.boot.slot

/-- The revision of the running image; the boot ROM's own when the slot's header cannot be read. -/
def Nv.runRev (stage : Nat) (v : Nv) : Nat :=
  let s := v.runSlot stage
  if headerOk (v.header s) then headerRev (v.header s) else Config.romRevision

/-- The record of an activation of the inactive slot: TRIAL set, trial boots 0, the running slot as previous slot (R567). -/
def Nv.activation (life : Nat) (v : Nv) : BootRec :=
  { slot := v.inactive, trial := true, recovered := false, gen := 0, trials := 0, prevSlot := v.boot.slot, rev := v.slotRev v.inactive
    prevRev := v.slotRev v.boot.slot, actLife := life }

/-- Programs the sectors of a FWDOWNLOAD (R565); `first` erases the header sector before it. -/
def Nv.download (off : Nat) (data : Bytes) (first : Bool) (v : Nv) : Nv :=
  let base := slotBase v.inactive
  let v' := if first then v.erase base 4096 else v
  (v'.erase (base + off) (roundUp data.length 4096)).write (base + off) data

/-! The boot ROM (R547). -/

/-- Steps 1 to 3 of the boot ROM: the slot it tries first, its fallback when the trial boots are used up, the flash then. -/
def Nv.bootFirst (v : Nv) : Nat × List (Nat × Nat) × Nv :=
  let r := v.boot
  if r.trial then
    if r.trials < 3 then (r.slot, [], v.writeBoot { r with trials := r.trials + 1 })
    else (r.prevSlot, [(r.rev, 2)], v.writeBoot { r with slot := r.prevSlot, trial := false, recovered := false, trials := 0, rev := r.prevRev })
  else (r.slot, [], v)

/-- The record that names slot `s` as active after the other one failed (R547 step 4). -/
def Nv.fallback (s : Nat) (v : Nv) : BootRec :=
  { slot := s, trial := false, recovered := false, gen := 0, trials := 0, prevSlot := 1 - s, rev := v.slotRev s, prevRev := v.slotRev (1 - s)
    actLife := 0 }

/-- What the boot ROM decides: the slot it runs, none for RECOVERY; its fallbacks, each with the revision abandoned and the cause that
`UPD_ROLLBACK` gives; the flash after it. -/
def Nv.bootRom (v : Nv) : Option Nat × List (Nat × Nat) × Nv :=
  let f := v.bootFirst
  let s := f.1
  if f.2.2.verify s = 0 then (some s, f.2.1, f.2.2)
  else if f.2.2.verify (1 - s) = 0 then
    (some (1 - s), f.2.1 ++ [(f.2.2.boot.rev, 3)], f.2.2.writeBoot (f.2.2.fallback (1 - s)))
  else (none, f.2.1, f.2.2)

/-! The configuration store and the calibration area (R551-R554). -/

/-- Format and generation of the image in a bank, when it is valid. -/
def Nv.storeImage (magic : String) (base : Nat) (v : Nv) : Option (Nat × Nat) :=
  let h := v.read base 0x18
  let len := le h 0x10 4
  if h.take 4 == ascii magic && decide (64 ≤ len) && decide (len ≤ 2 ^ 20)
      && le h 0x14 4 == (crc32 (h.take 0x14 ++ v.read (base + 0x18) (len - 0x18))).toNat then some (le h 4 2, le h 8 8)
  else none

def Nv.bank (b : Nat) (v : Nv) : Option (Nat × Nat) := v.storeImage "CRKC" (bankBase b)

/-- The newest valid generation of format `f` in any bank. -/
def Nv.newest (f : Nat) (v : Nv) : Nat :=
  (List.range 4).foldl (fun m b => match v.bank b with
    | some (g, n) => if g = f then max m n else m
    | none => m) 0

/-- The bank that takes the next configuration image: the lowest generation, never the newest image of a format that a slot
names (R552). -/
def Nv.nextBank (formats : List Nat) (v : Nv) : Nat :=
  let free := (List.range 4).filter fun b => match v.bank b with
    | some (f, n) => !(formats.contains f && n == v.newest f)
    | none => true
  let gen : Nat → Nat := fun b => match v.bank b with
    | some (_, n) => n
    | none => 0
  match free with
  | [] => 0
  | b :: bs => bs.foldl (fun m x => if gen x < gen m then x else m) b

/-- Writes a configuration image of format `f` with the given items (R551, R552). -/
def Nv.writeConfig (f : Nat) (items : Bytes) (v : Nv) : Nv :=
  let formats := [v.format 0, v.format 1, f]
  let b := v.nextBank formats
  let gen := 1 + (List.range 4).foldl (fun m b => match v.bank b with
    | some (_, n) => max m n
    | none => m) 0
  let head := ascii "CRKC" ++ leBytes 2 f ++ leBytes 2 0 ++ leBytes 8 gen ++ leBytes 4 (0x18 + items.length)
  (v.erase (bankBase b) (2 ^ 20)).write (bankBase b) (head ++ leBytes 4 (crc32 (head ++ items)).toNat ++ items)

/-- Some bank holds a valid configuration image of format `f` or of an older one (R551). -/
def Nv.anyConfig (f : Nat) (v : Nv) : Bool := (List.range 4).any fun b => match v.bank b with
  | some (g, _) => decide (g ≤ f)
  | none => false

/-! The preload area (R556, R557). -/

/-- A preload record: register offset, stage, mask, value. -/
structure Preload where
  off   : Nat
  stage : Nat
  mask  : Nat
  val   : Nat
  deriving DecidableEq, Repr

/-- The records to apply, the number of skipped records, whether the whole area was rejected. -/
def Nv.preload (v : Nv) : List Preload × Nat × Bool :=
  let h := v.read preloadBase 64
  if h.take 4 == fill 4 0xFF then ([], 0, false)
  else
    let n := le h 6 2
    if h.take 4 == ascii "CRKP" && le h 4 2 == 1 && decide (n ≤ 16384)
        && le h 0x3C 4 == (crc32 (h.take 60 ++ v.read (preloadBase + 64) (12 * n))).toNat then
      let recs := (List.range n).map fun i => v.read (preloadBase + 64 + 12 * i) 12
      let good := fun (r : Bytes) => le r 0 2 % 4 == 0 && decide (byteAt r 2 ≤ 1) && byteAt r 3 == 0 && le r 4 4 != 0
      ((recs.filter good).map fun r => { off := le r 0 2, stage := byteAt r 2, mask := le r 4 4, val := le r 8 4 }, (recs.filter (!good ·)).length, false)
    else ([], 0, true)

/-! Recorder records in the birth area (R555, R601, R606). -/

/-- A record of R601 as bytes. -/
def EvRec.bytes (r : EvRec) : Bytes :=
  let b := leBytes 8 r.seq ++ leBytes 8 r.life ++ leBytes 8 r.wall ++ leBytes 2 r.src ++ leBytes 1 r.sev
    ++ leBytes 1 (bitAt 0 r.frozen + bitAt 1 r.parked) ++ leBytes 4 r.count ++ padTo 24 r.data ++ ascii "EVRV"
  b ++ leBytes 4 (crc32 b).toNat

/-- Programs a record into its slot of the birth area. -/
def Nv.birth (r : EvRec) (v : Nv) : Nv := v.write (birthBase + 64 * (r.seq - 1)) r.bytes

end Sys2Proof.Machine
end

