-- ==== Sys2Proof/Machine/Hold.lean ====
section
/-! DEFINITION. The hold-up bank: measurement rounds, isolation of sections, protected staging on and off (10). -/

namespace Sys2Proof.Machine

/-- Measured energy of the sections in service in mJ (R402): C is 0.5 A over 2.0 V times the time measured in microseconds, V_c is in
0.25 V. -/
def Bank.energy (b : Bank) : Nat :=
  sumBy (fun (s : Section) => if s.state == 0 then s.dt * (s.vc * s.vc - 3136) else 0) b.sects / 128000

def Bank.sect (n : Nat) (b : Bank) : Section := b.sects.getD n .reset

def Bank.onSect (n : Nat) (f : Section → Section) (b : Bank) : Bank :=
  { b with sects := (numbered b.sects).map fun x => if x.1 == n then f x.2 else x.2 }

/-- The dirty bytes exceed what the ledger would now take (R398): nothing, when protected staging is disabled. -/
def Drive.overCheck (d : Drive) : Drive :=
  let now := decide (d.kvx.dirty > 0) && !(d.bank.en && d.bank.admits d.kvx.dirty)
  let was := d.bank.overE
  let d := d.onBank fun b => { b with overE := now }
  if now && !was then d.raise 0x012 (leBytes 4 d.kvx.dirtyKib ++ leBytes 2 d.bank.limit) else d

/-- Takes the measured energy from the sections. Until the first round after charging ends it reads 0 (R405). -/
def Drive.remeasure (d : Drive) : Drive :=
  (d.onBank fun b => { b with emeas := if b.first then 0 else b.energy }).overCheck

/-- Rounds run in this mode (R400). -/
def Pwr.rounds (p : Pwr) : Bool := !([0, 2, 8, 0xA].contains p.cur)

/-- A round falls due: it starts at once, or when the one that runs ends. -/
def Drive.roundDue (d : Drive) : Drive := d.onBank fun b => { b with again := true }

/-- A round starts, when one is due and none runs (R400). -/
def Drive.roundStart (d : Drive) : Drive :=
  let due := d.bank.again || (!d.bank.first && decide (d.bank.lastStart + 600000000000 ≤ d.clk.life))
  if due && d.bank.round.isNone && d.pwr.rounds then
    d.onBank fun b => { b with round := some 0, measuring := false, again := false, early := b.chg, lastStart := d.clk.life }
  else d

/-- The next section of the round that is in service. -/
def Bank.next (k : Nat) (b : Bank) : Option Nat := (List.range 8).find? fun n => decide (k ≤ n) && (b.sect n).state == 0

/-- A round ends: protected staging is judged (R397, R405), by a round that began after the bank was charged. A bank with no section in
service ends its round without a step 5. -/
def Drive.roundEnd (d : Drive) : Drive :=
  let early := d.bank.early
  let first := d.bank.first
  let d := d.onBank fun b => { b with round := none, measuring := false, early := false, lastEnd := some d.clk.life, first := first && early }
  let d := d.onBank fun b => { b with emeas := if first && early then 0 else b.energy }
  if first && early then d.overCheck.roundStart else
  let mj := d.bank.emeas
  let low := decide (mj < 1600)
  let mv := leBytes 2 mj
  let d :=
    if first then
      if low then (d.onBank fun b => { b with en := false, lowE := true }).raise 0x010 mv
      else if d.bank.stageCap = 0 then d
      else (d.onBank fun b => { b with en := true, lowE := false }).raise 0x011 mv
    else if d.bank.lowE && decide (1800 ≤ mj) then
      let d := d.onBank fun b => { b with en := decide (0 < b.stageCap), lowE := false }
      if d.bank.en then d.raise 0x011 mv else d
    else if !d.bank.lowE && (d.bank.next 0).isNone then (d.onBank fun b => { b with en := false, lowE := true }).raise 0x010 mv
    else d
  d.overCheck.roundStart

/-- The round goes on after section `n`, or ends. -/
def Drive.roundGoesOn (n : Nat) (d : Drive) : Drive :=
  match d.bank.next (n + 1) with
  | some m => d.onBank fun b => { b with round := some m, measuring := false }
  | none => d.roundEnd

/-- Isolates a section (R403, R404): its switch, the section event, a new round at once, the live action. -/
def Drive.isolate (n cause : Nat) (host : Bool) (d : Drive) : Drive :=
  if (d.bank.sect n).state = 2 ∨ n ≥ 8 then d
  else
    let mine := d.bank.measuring && d.bank.round == some n
    let d := d.onBank fun b => b.onSect n fun s => { s with state := 2, cause := cause }
    let s := d.bank.sect n
    let d := (d.raise 0x014 (leBytes 1 n ++ leBytes 1 cause ++ leBytes 2 s.cap ++ leBytes 1 s.esr)).startAction 0x09 0 n host
    let d := d.remeasure.roundDue
    if mine then d.roundGoesOn n else d.roundStart

/-- A section of the round is switched off the bus; its charged voltage is sampled (R401 step 1, R403 cause 3). -/
def Drive.sectionStart (vc : Nat) (d : Drive) : Drive :=
  match d.bank.round, d.bank.measuring with
  | some k, false =>
    match d.bank.next k with
    | none => d.roundEnd
    | some n =>
      let low := decide (vc < 132)
      let d := d.onBank fun b =>
        { (b.onSect n fun s => { s with state := 1, low := if low then s.low + 1 else 0 }) with round := some n, measuring := true, vcNow := vc }
      let d := d.remeasure
      if low && decide (2 ≤ (d.bank.sect n).low) then (d.onBank fun b => b.onSect n fun s => { s with vc := vc }).isolate n 3 false else d
  | _, _ => d

/-- The section has fallen 2.0 V after `dt` microseconds (R401 steps 2 to 4, R403 causes 1 and 2). -/
def Drive.sectionDischarged (dt esr : Nat) (d : Drive) : Drive :=
  match d.bank.round, d.bank.measuring with
  | some n, true =>
    let cap := dt / 40
    let d := d.onBank fun b => b.onSect n fun s => { s with dt := dt, cap := min 2047 cap, esr := min 255 esr, vc := b.vcNow % 256 }
    if cap < 110 then d.isolate n 1 false else if esr > 200 then d.isolate n 2 false else d
  | _, _ => d

/-- The section is recharged and reconnected (R401 step 5, R397, R402). A fall below 1.6 J is told also when a ceiling of 0 keeps protected
staging disabled already. -/
def Drive.sectionRecharged (d : Drive) : Drive :=
  match d.bank.round, d.bank.measuring with
  | some n, true =>
    let d := (d.onBank fun b => { (b.onSect n fun s => { s with state := 0 }) with measuring := false }).remeasure
    let d :=
      if !d.bank.first && !d.bank.lowE && decide (d.bank.emeas < 1600) then
        (d.onBank fun b => { b with en := false, lowE := true }).raise 0x010 (leBytes 2 d.bank.emeas)
      else d
    d.roundGoesOn n
  | _, _ => d

/-- `PWR_STAGECAP` takes a value (R397, R417): 0 disables protected staging; another value enables it again unless the energy, as the last
step 5 judged it, keeps it off. -/
def Drive.setStageCap (mib : Nat) (d : Drive) : Drive :=
  (d.onBank fun b =>
    { b with stageCap := min 0x1000 mib
             en := decide (0 < mib) && !b.lowE && !b.first }).overCheck

/-- 12 V comes up: the bank charges from empty (R405). -/
def Drive.bankCharging (d : Drive) : Drive :=
  d.onBank fun b => { b with chg := true, first := true, en := false, lowE := false, overE := false, emeas := 0, round := none
                             measuring := false, again := false, bankV := 0 }

/-- The charger reports the bank charged (R400). -/
def Drive.bankCharged (d : Drive) : Drive :=
  if d.bank.chg then (d.onBank fun b => { b with chg := false, again := true, bankV := 136 }).roundStart else d

/-- A measurement ends without a result: HOLD-UP, reset or PARKED (R401). -/
def Bank.stop (b : Bank) : Bank :=
  { b with sects := b.sects.map fun s => if s.state == 1 then { s with state := 0 } else s, round := none, measuring := false }

/-! Rows. -/

def execMeasurementRoundStart (s : State) : Host.Outcome State Fault Refusal := .next { s with d := s.d.roundStart }

def execSectionMeasurementStart (vc : Nat) (s : State) : Host.Outcome State Fault Refusal :=
  .next { s with d := s.d.sectionStart vc }

def execSectionDischargeDone (dtUs : Nat) (esr : Nat) (s : State) : Host.Outcome State Fault Refusal :=
  .next { s with d := s.d.sectionDischarged dtUs esr }

def execSectionRechargeDone (s : State) : Host.Outcome State Fault Refusal := .next { s with d := s.d.sectionRecharged }

/-- R403 cause 4: the section is not at 33.5 V within 10 s of a charge start. -/
def execSectionChargeTimeout (n : Fin 8) (s : State) : Host.Outcome State Fault Refusal :=
  .next { s with d := s.d.isolate n.val 4 false }

/-- R403 cause 6: outside HOLD-UP. -/
def execSectionShort (n : Fin 8) (s : State) : Host.Outcome State Fault Refusal :=
  .next { s with d := if s.d.pwr.cur = 0xA then s.d else s.d.isolate n.val 6 false }

def execBankCharged (s : State) : Host.Outcome State Fault Refusal := .next { s with d := s.d.bankCharged }

end Sys2Proof.Machine
end

