-- ==== Sys2Proof/Machine/Modes.lean ====
section
/-! DEFINITION. The operating modes: SETMODE and `PWR_CMD`, IDLE, PARKED, SCRUB, HOLD-UP, RESET, caps and thermal limits, wakes, the
always-on supply (10, 14, 18). -/

namespace Sys2Proof.Machine

/-! Requests for a mode (R519-R521). -/

/-- What runs that PARKED and IDLE wait for, as the OPERATION detail of R137 numbers it; 0 for nothing. -/
def Drive.operation (d : Drive) : Nat :=
  if d.upd.sanState = 1 then 1 else if d.upd.testing then 2 else if d.upd.activating then 3 else 0

/-- Why a request for mode `m` is refused (R519, R520). (log 17 DEDUCED) -/
def Drive.modeRefusal (m : Nat) (d : Drive) : Option Res :=
  let p := d.pwr
  let mode := Res.conflict 10 1 p.cur m
  if !((decide (3 ≤ m) && decide (m ≤ 8)) || m == 0xB) then some mode
  else if m = p.cur then none
  else if !p.serving then some mode
  else if p.cur = 0xB ∧ p.roCause ≥ 2 ∧ 3 ≤ m ∧ m ≤ 7 then some mode
  else if (m = 7 ∨ m = 8) ∧ d.operation ≠ 0 then some (.conflict 10 4 d.operation)
  else if m = 8 ∧ ¬ p.aux then some mode
  else none

/-- The selected cap takes a cap code; 0 leaves it (R515). It counts from the next epoch. -/
def Drive.selectCap (cap : Nat) (d : Drive) : Drive := if cap = 0 then d else d.onPwr fun p => { p with capSel := cap }

/-- A change of mode begins. -/
def Drive.startChange (m : Nat) (cmd : Option (Nat × Nat)) (byPwr : Bool) (d : Drive) : Drive :=
  d.onPwr fun p => { p with change := some { target := m, cmd := cmd, byPwr := byPwr, before := p.cur, drained := false } }

/-- What `PWR_CMDST` reports. -/
def Drive.pwrStatus (status det : Nat) (d : Drive) : Drive := d.onPwr fun p => { p with cmdStat := status, cmdDet := det }

/-- A request of `PWR_CMD` is judged, no change being in progress. -/
def Drive.pwrRequest (m cap : Nat) (d : Drive) : Drive :=
  match d.modeRefusal m with
  | some r => d.pwrStatus r.status (byteAt r.b 1)
  | none => let d := d.selectCap cap; if m = d.pwr.cur then d.pwrStatus stSuccess m else d.startChange m none true

/-- Requests of `PWR_CMD` that wait are judged in turn until one starts a change. -/
def Drive.nextPwrCmd (d : Drive) : Drive :=
  (List.range d.pwr.cmdQ.length).foldl (fun d _ =>
    match d.pwr.change, d.pwr.cmdQ with
    | none, x :: rest => (d.onPwr fun p => { p with cmdQ := rest }).pwrRequest x.1 x.2
    | _, _ => d) d

/-- The SETMODE of a change tells the mode before and the mode entered (R164, R521). -/
def Drive.changeTold (ch : Change) (m : Nat) (d : Drive) : Drive :=
  match ch.cmd with
  | some (q, o) => d.onCtx q o fun c => { c with res := { c.res with b := leBytes 1 ch.before ++ leBytes 1 m } }
  | none => d

/-- The change in progress ends in mode `m` (R521). (log 68 DEDUCED) -/
def Drive.finishChange (m : Nat) (d : Drive) : Drive :=
  match d.pwr.change with
  | none => d
  | some ch =>
    let d := d.onPwr fun p => { p with change := none }
    let d := if ch.byPwr then d.pwrStatus stSuccess m else d
    (d.changeTold ch m).nextPwrCmd

/-- A write to `PWR_CMD` (R537). (log 71 DEDUCED) -/
def Drive.pwrCmd (v : Word) (d : Drive) : Drive :=
  let n := v.toNat
  if field n 24 8 ≠ 0x4D then d.onPwr fun p => { p with cmdErr := true }
  else if d.pwr.change.isSome then d.onPwr fun p => { p with cmdQ := p.cmdQ ++ [(field n 0 4, field n 8 2)] }
  else d.pwrRequest (field n 0 4) (field n 8 2)

/-- The turn of SETMODE: it waits for a change in progress and is then judged (R521). It settles there, as its status can no longer change
(R222); its CQE waits until the change has ended. -/
def Drive.turnSetmode (c : Ctx) (d : Drive) : Drive :=
  if d.pwr.change.isSome then d
  else
    let m := c.e.c 0x70 1
    match d.modeRefusal m with
    | some r => d.refuse c r
    | none =>
      let d := d.selectCap (c.e.c 0x71 1)
      if m = d.pwr.cur then d.refuse c { b := leBytes 1 m ++ leBytes 1 m }
      else (d.startChange m (some (c.sq, c.ord)) false).refuse c { b := leBytes 1 d.pwr.cur ++ leBytes 1 m }

/-! The scheduling epoch (R514, R515, R522, R528). -/

/-- READ-ONLY with a drive cause takes effect over any change in progress, but for a park past its step 4 (R521, R527). -/
def Drive.enterReadOnly (d : Drive) : Drive :=
  let cause := d.pwr.roWant
  let parked := match d.pwr.change with
    | some ch => ch.drained
    | none => false
  let d := d.onPwr fun p => { p with roCause := cause, roWant := 0 }
  if d.pwr.serving && !parked then
    ((if d.pwr.cur = 0xB then d else d.goMode 0xB).raise 0x002 (leBytes 1 cause)).finishChange 0xB
  else d

/-- A mode that an epoch enters. READ-ONLY entered so has the host as its cause. -/
def Drive.epochMode (m : Nat) (d : Drive) : Drive :=
  (d.onPwr fun p => { p with roCause := if m = 0xB then 1 else if p.roCause = 1 then 0 else p.roCause }).goMode m

/-- What an epoch does to mode and cap. A change from READ-ONLY to IDLE goes through the last ACTIVE mode. -/
def Drive.modeEpoch (d : Drive) : Drive :=
  let d :=
    if d.pwr.roWant ≠ 0 then d.enterReadOnly
    else
      match d.pwr.change with
      | none => d
      | some ch =>
        if d.pwr.cur = 0xB ∧ ch.target = 7 then d.epochMode d.pwr.last
        else if ch.target = 0xB && d.pwr.serving then (d.epochMode 0xB).finishChange 0xB
        else if 3 ≤ ch.target && decide (ch.target ≤ 6) && (d.pwr.active || d.pwr.cur == 0xB) then
          (d.epochMode ch.target).finishChange ch.target
        else d
  d.refreshCap.retarget

/-! IDLE (R524-R526). -/

/-- The turn of a command needs flash (R525): every command but the three reads that the index and the value caches serve (R32,
R294), FLUSH, and the admin commands without SELFTEST and SANITIZE. -/
def Drive.needsFlash (c : Ctx) (d : Drive) : Bool :=
  let key := c.key.getD []
  let ks := c.e.ksId
  let s := d.kvx.store
  let paged := d.idx.pageIn s ks key
  if c.op = 0x04 then !paged
  else if c.op = 0x01 ∨ c.op = 0x05 then
    let indexOnly := c.op == 0x01 && c.e.flag 5 && c.e.vlen == 0
    !paged || (match s.get? ks key with
      | some r => !d.valueHeld r.recId
      | none => c.e.flag 4) && !indexOnly
  else if c.op = 0x18 then false
  else !adminOp c.op || c.op == 0x4F || c.op == 0x54

/-- The command has to wait until the drive has left IDLE. -/
def Drive.idleHolds (c : Ctx) (d : Drive) : Bool := d.pwr.cur == 7 && d.needsFlash c

/-- Days between full passes (R381). -/
def Drive.scrubDays (d : Drive) : Nat := if d.pwr.last = 6 then 7 else 30

/-- The scrubber's state (R385): 0 idle, 1 pass in an ACTIVE mode or READ-ONLY, 2 pass in SCRUB, 3 waiting for 12 V with PWR_REQ# asserted.
(log 134 DEDUCED) -/
def Drive.scrubState (d : Drive) : Nat :=
  if (d.pwr.cur = 8 ∨ d.pwr.cur = 0) ∧ bit d.pwr.why 0 then 3
  else if !d.med.scrub then 0
  else if d.pwr.cur = 9 then 2 else if d.pwr.active || d.pwr.cur == 0xB then 1 else 0

/-- Progress of the pass in percent: an open value (R385). -/
def Drive.scrubPct (d : Drive) : Nat := if d.med.scrub then Config.passPct d.med.passes (d.clk.life - d.med.scrubAt) % 101 else 0

/-- A full pass is due. -/
def Drive.scrubDue (days : Nat) (d : Drive) : Bool := decide (d.med.lastPass + 86400 * days ≤ d.clk.installed)

/-- Free frames below which garbage collection starts, by the last ACTIVE mode (R365). -/
def gcStart (mode : Nat) : Nat := if mode = 3 then 1024 else if mode = 4 then 768 else 512

/-- Something takes the drive out of IDLE. -/
def Drive.idleLeaves (d : Drive) : Bool :=
  (match d.pwr.change with
   | some ch => decide (3 ≤ ch.target) && decide (ch.target ≤ 6)
   | none => false) ||
  (d.kvx.ctxs.any fun c => c.arrived && c.started && !c.turned && !c.settled && d.needsFlash c) ||
  d.scrubDue d.scrubDays || decide (d.med.freeFrames < gcStart d.pwr.last)

/-- The drive leaves IDLE for the ACTIVE mode it came from. -/
def Drive.idleExit (d : Drive) : Drive :=
  if d.pwr.cur = 7 && d.idleLeaves then
    let d := d.goMode d.pwr.last
    match d.pwr.change with
    | some ch => if ch.target = d.pwr.cur then d.finishChange d.pwr.cur else d
    | none => d
  else d

/-- The flash is powered down after staging has been programmed (R412, R524). -/
def Drive.idleEntry (d : Drive) : Drive :=
  match d.pwr.change with
  | some ch =>
    if ch.target = 7 && d.pwr.active then ((d.onKvx Kvx.programAll).goMode 7).finishChange 7 |>.overCheck else d
  | none => d

/-- Garbage collection, folding or a pass is in progress (R526). (log 139 DEDUCED) -/
def Med.working (m : Med) : Bool :=
  m.gcState != 0 || m.scrub || m.segs.any fun s => s.state != .opened && s.state != .sealed

/-- `PWR_AUTOIDLE` seconds have passed without host commands, garbage collection, folding or a pass (R526). -/
def Drive.autoIdle (d : Drive) : Drive :=
  if d.pwr.active && d.pwr.change.isNone && d.pwr.autoIdle != 0 && d.kvx.ctxs.isEmpty && !d.med.working
      && d.operation == 0 && decide (max d.pwr.idleAt d.med.workAt + 1000000000 * d.pwr.autoIdle ≤ d.clk.life) then
    d.startChange 7 none false
  else d

/-! What survives the loss of power to everything but the always-on island (R413, R516, R530, R553, R595). -/

/-- A source keeps its enable, severity and routing (R595). (log 74 DEDUCED) -/
def Src.kept (s : Src) : Src := { s with count := 0, latch := false }

/-- A port keeps its filters and addresses. -/
def PortSt.kept (p : PortSt) : PortSt := { PortSt.reset with filters := p.filters, ip4 := p.ip4, ip6 := p.ip6, nhMac := p.nhMac }

/-- A section keeps its isolation, recorded in the configuration store, and with it its cause (R404, R417). (log 154 DEDUCED) -/
def Section.kept (s : Section) : Section := if s.state = 2 then { Section.reset with state := 2, cause := s.cause } else .reset

/-- The power-loss flush of commit records (R409, R414): with `whole` everything committed to protected staging is on flash, but for the
records `bad`, whose staged data cannot be read (R503); else only what was programmed is sure. -/
def Kvx.flush (whole : Bool) (bad : List Nat) (k : Kvx) : Kvx :=
  let open_ := fun (s : Staged) => match s.serial with
    | none => false
    | some n => bad.contains s.recId || !(whole && k.log.any fun r => r.serial == n && r.admitted && !r.media)
  { k with
    log := if whole then k.log.map fun r => { r with journaled := true, admitted := r.admitted && !(r.vals.any bad.contains) } else k.log
    staged := k.staged.filter open_ }

/-- The command island without power: contexts, packs, watches and waiting work are gone, and the outcomes of the request-ID window
that no commit record holds (R248, R531). -/
def Kvx.down (k : Kvx) : Kvx :=
  { k with ctxs := [], deleting := [], pack := none, packs := [], packWait := [], journal := [], admq := [], watches := [], checks := []
           window := k.window.filter fun w => w.serial.isSome }

/-- Every island but the always-on and management islands loses its state, but for what flash and the configuration store keep. -/
def Drive.islandsDown (d : Drive) : Drive :=
  { Drive.reset with
    kvx := d.kvx.down
    evr := d.evr, clk := d.clk
    idx := Idx.readMedia d.clk.life { Idx.reset with
      tiles := (numbered d.idx.tiles).map fun t => { Tile.reset t.1 with fenced := t.2.fenced }
      pages := d.idx.pages.map fun p => { p with dirty := false }
      pageSeq := d.idx.pageSeq, lost := d.idx.lost, rebuild := d.idx.rebuild, full := d.idx.full }
    med := { d.med with gcState := 0, paced := [], bucket := if d.med.pacing then d.med.bucket else 2 ^ 30
                        segs := d.med.segs.map fun s => if s.state == .collecting || s.state == .copied then { s with state := .sealed, into := none, cold := false } else s
                        chans := d.med.chans.map fun c => if c.2.state = 1 then (c.1, { c.2 with state := 0 }) else c }
    bank := { d.bank with
      sects := d.bank.sects.map Section.kept, en := false, lowE := false, overE := false, chg := false, emeas := 0, round := none
      measuring := false, again := false, first := true, bankV := 0 }
    portA := d.portA.kept, portB := d.portB.kept, jack := d.jack
    cry := { Cry.reset with
      vauth := d.cry.vauth, xts128 := d.cry.xts128, blobSer := d.cry.blobSer, aesFence := d.cry.aesFence, digFence := d.cry.digFence
      p384Bad := d.cry.p384Bad, exportKey := d.cry.exportKey, exportCnt := d.cry.exportCnt, busErrs := d.cry.busErrs }
    dmc := { Dmc.reset with chans := d.dmc.chans.map fun c =>
      if 4 ≤ c.state then { Dram.reset with state := 5 } else { Dram.reset with stored := c.stored, trainedAt := c.trainedAt } }
    pwr := d.pwr, upd := { d.upd with clamped := [] }, mgmt := d.mgmt, sys := d.sys, free := d.free }

/-- A whole-drive reset: the management island loses its state too. Actions and self-tests that ran end; the update stage is told
anew at BOOT (R563, R582). (log 69 DEDUCED) -/
def Drive.powerOff (d : Drive) : Drive :=
  let p := d.pwr
  let d' := d.islandsDown
  { d' with
    idx := { d'.idx with tiles := Idx.reset.tiles }
    bank := { Bank.reset with
      sects := d'.bank.sects, stageCap := d.bank.stageCap, holdUps := d.bank.holdUps, sealOk := d.bank.sealOk, ckptOk := d.bank.ckptOk
      flushMs := d.bank.flushMs, torn := d.bank.torn }
    cry := { Cry.reset with vauth := d.cry.vauth, xts128 := d.cry.xts128, blobSer := d.cry.blobSer }
    dmc := { d'.dmc with chans := d'.dmc.chans.map fun c => { c with stored := 0 } }
    evr := { d.evr with srcs := d.evr.srcs.map (fun s => (s.1, s.2.kept)), freeze := none, lift := 0, fullAt := none }
    pwr := { Pwr.reset with
      cur := p.cur, roCause := if p.roCause ≥ 2 then p.roCause else if p.roWant ≥ 2 then p.roWant else 0, capSel := p.capSel
      bootMode := p.bootMode, autoIdle := p.autoIdle, wakeSrc := p.wakeSrc, share := p.share, pinEn := p.pinEn, alarm := p.alarm
      why := p.why, req := p.req, good := p.good, mainOk := p.mainOk, aux := p.aux, resetN := p.resetN, temp := p.temp, shut := p.shut
      trans := p.trans, capEff := p.capEff }
    upd := { Upd.reset with
      falls := d.upd.falls, fallen := d.upd.fallen, cfgAt := d.upd.cfgAt, sanState := d.upd.sanState, sanBlock := d.upd.sanBlock, sanStep := d.upd.sanStep, sanCount := d.upd.sanCount
      tested := d.upd.tests.head?.any (·.state == 1), sanStart := d.upd.sanStart, sanEnd := d.upd.sanEnd, sanRet := d.upd.sanRet, nonce := d.upd.nonce, actSerial := d.upd.actSerial
      tests := d.upd.tests.map fun t => if t.state = 1 then { t with state := 5, stop := d.clk.life } else t
      actions := keepActions (d.upd.actions.filterMap fun a => if a.state = 3 then none else if a.state = 0 then
        some { a with state := 2, stop := d.clk.life } else some { a with host := false }) }
    mgmt := { Mgmt.reset with addr := d.mgmt.addr, secReq := d.mgmt.secReq, secKept := d.mgmt.secKept, ledDis := d.mgmt.ledDis, slotId := d.mgmt.slotId }
    sys := .reset }

/-! RESET and HOLD-UP (R408-R412, R522, R523). -/

/-- The drive enters RESET. -/
def Drive.toReset (d : Drive) : Drive := (d.powerOff.enterMode 0)

/-- A mode in which a loss of 12 V, RESET# or a shutdown limit enters HOLD-UP (R522). -/
def Pwr.holdsUp (p : Pwr) : Bool := p.serving || p.cur == 9

/-- The power-loss sequence of R409 as a whole, then RESET. `trig` is the trigger that `PWR_HOLDUP` records, `whole` whether
protected staging was programmed, `bad` the records of it that cannot be read. -/
def Drive.holdUp (trig : Nat) (whole : Bool) (f : Flush) (d : Drive) (bad : List Nat := []) : Drive :=
  let kib := d.kvx.dirtyKib
  let d := (d.enterMode 0xA).onDmc Dmc.slow
  let d := d.onKvx (Kvx.flush whole bad)
  let d := d.onBank fun b => { b.stop with holdUps := wrap32 (b.holdUps + 1), sealOk := f.sealed, torn := !f.sealed, ckptOk := f.ckpt
                                           flushMs := if f.sealed then min 0xFFFE f.ms else 0xFFFF }
  let d := d.program 2 (d.med.asideAt.getD 2 0) 0 (1024 * kib)
  let d := if f.sealed then d.onClk fun c => { c with lifeJour := c.life, instJour := c.installed } else d
  (d.raise 0x015 (leBytes 1 trig ++ leBytes 4 kib ++ leBytes 2 f.ms)).toReset

/-- The configuration store is written (R551, R553); while an image runs in TRIAL, in the previous image's format too (R571). What the
items hold is open. (log 99 DEDUCED) -/
def State.storeConfig (s : State) : State :=
  let r := s.d.draw 64
  let own := s.nv.format (s.nv.runSlot s.d.upd.stage)
  let old := s.nv.format s.nv.boot.prevSlot
  let nv := s.nv.writeConfig own r.1
  { s with nv := if s.d.upd.stage = 4 && old != own then nv.writeConfig old r.1 else nv
           d := r.2.onUpd fun u => { u with cfgAt := some s.d.clk.life } }

/-- A HOLD-UP with the configuration store written after its seal (R553). (log 70 DESIGN CHOICE) -/
def State.holdUp (trig : Nat) (f : Flush) (s : State) : State :=
  let s := { s with d := s.d.holdUp trig f.sealed f }
  if f.sealed then s.storeConfig else s

/-- 12 V is lost (R408, R522). -/
def State.mainLoss (f : Flush) (s : State) : State :=
  let low := fun (d : Drive) => d.onPwr fun p => { p with mainOk := false }
  if s.d.pwr.holdsUp then ({ s with d := low s.d } : State).holdUp 0 f
  else if s.d.pwr.cur = 1 ∨ s.d.pwr.cur = 2 then { s with d := (low s.d).toReset }
  else { s with d := low s.d }

/-- RESET# is held low (R523, R631). -/
def State.resetLow (f : Flush) (s : State) : State :=
  let low := fun (d : Drive) => d.onPwr fun p => { p with resetN := false }
  if s.d.pwr.holdsUp then ({ s with d := low s.d } : State).holdUp 1 f
  else if s.d.pwr.cur = 1 ∨ s.d.pwr.cur = 2 then { s with d := (low s.d).toReset }
  else { s with d := low s.d }

/-! PARKED, SCRUB and wakes (R530-R536). -/

/-- The command that parks. -/
def Drive.parker (d : Drive) : Option (Nat × Nat) := (d.pwr.change.bind (·.cmd))

/-- Steps 2 to 4 of R530, once every other fetched command has its CQE. -/
def Drive.parkDrain (d : Drive) : Drive :=
  match d.pwr.change with
  | none => d
  | some ch =>
    if ch.target = 8 && !ch.drained && (d.kvx.ctxs.all fun c => some (c.sq, c.ord) == ch.cmd || d.cqeDone c) then
      let d := (d.onKvx fun k => k.programAll.checkpoint).onClk fun c => { c with lifeJour := c.life, instJour := c.installed }
      let d := d.onPwr fun p => { p with change := some { ch with drained := true, drainAt := d.clk.life } }
      let d := d.changeTold ch 8
      match ch.cmd.bind fun x => d.ctx? x.1 x.2 with
      | some c => if d.cqeAllowed c then d.writeCqe c else d
      | none => d
    else d

/-- Everything but the always-on island loses power; the drive is PARKED (R530 step 6, R531). -/
def Drive.park (d : Drive) : Drive :=
  let d := (d.onKvx fun k => { k.programAll.checkpoint with staged := [] }).islandsDown
  let d := d.onKvx fun k =>
    let s := k.store.dropVolatile
    { k with store := s, base := s }
  let d := d.onPwr fun p => { p with roCause := if p.roCause = 1 then 0 else p.roCause, capTherm := 3, resume := none }
  let d := (d.onJack fun j => { j with onLane := j.arm && j.code != 0, link := false }).onBank fun b => { b with torn := false }
  (d.enterMode 8).raise 0x018 []

/-- The CQE of the command that parks has been acknowledged, or 10 ms have passed since step 4 (R530). -/
def Drive.parkAcked (ch : Change) (d : Drive) : Bool :=
  decide (ch.drainAt + 10000000 ≤ d.clk.life) || match ch.cmd with
    | some (q, o) => (d.ctx? q o).isNone
    | none => true

/-- Steps 5 and 6 of R530: every connection ends with no further CQE. -/
def Drive.parkDown (d : Drive) : Drive :=
  match d.pwr.change with
  | none => d
  | some ch =>
    if ch.drained && d.parkAcked ch then
      let d := d.xpt.conns.foldl (fun d c => d.endConn c.idx 5) d
      let d := d.onPwr fun p => { p with change := none }
      (if ch.byPwr then d.pwrStatus stSuccess 8 else d).park
    else d

/-- The mode that a wake leads to: `PWR_MODE.LAST`, READ-ONLY while a drive cause persists (R527, R532). -/
def Pwr.home (p : Pwr) : Nat := if p.roCause ≥ 2 then 0xB else p.last

/-- PWR_REQ# goes low for reason bit `w` (R533, R537). -/
def Drive.request (w : Nat) (d : Drive) : Drive :=
  let why := d.pwr.why ||| 2 ^ w
  (d.onPwr fun p => { p with req := true, why := why }).raise 0x01A (leBytes 1 why)

/-- The jack stops when the network ports come up. -/
def Drive.jackOff (d : Drive) : Drive := d.onJack fun j => { j with onLane := false, link := false }

/-- The installed time in nanoseconds: it runs in PARKED too. -/
def Clocks.installedNs (c : Clocks) : Nat := c.installed * 1000000000 + c.instNs

/-- The drive holds WAKE# low: for 100 us after a jack wake with `PWR_WAKE.SHARE` (R532). -/
def Drive.wakeLow (d : Drive) : Bool := d.pwr.wakeOut.any fun t => decide (d.clk.installedNs < t)

/-- A wake from source `src` (1 WAKE#, 2 jack, 3 alarm) with reason bit `w` (R532, R533, R535). -/
def Drive.wakeFrom (src w mac : Nat) (d : Drive) : Drive :=
  let m := d.pwr.cur
  if m = 8 then
    let first := d.pwr.resume.isNone || d.pwr.resume == some 9
    let d := if first then d.onPwr fun p => { p with resume := some p.home } else d
    let low := if src = 2 && d.pwr.share then some (d.clk.installedNs + 100000) else d.pwr.wakeOut
    let d := (d.onPwr fun p => { p with wakeSrc := src, wakeOut := low }).raise 0x019 (leBytes 1 src ++ leBytes 6 mac)
    if first && !(d.pwr.good && d.pwr.mainOk) then d.request w else d
  else if m = 9 then
    (d.onPwr fun p => { p with resume := some p.home, wakeSrc := src }).raise 0x019 (leBytes 1 src ++ leBytes 6 mac)
  else if (m = 0 ∨ m = 1) ∧ bit d.pwr.why 0 then d.onPwr fun p => { p with wakeSrc := src, why := p.why - p.why % 2 }
  else d

/-- Days after the last pass at which a PARKED or RESET drive wakes to scrub (R381, R535). -/
def Drive.scrubWake (d : Drive) : Drive :=
  if (d.pwr.cur = 8 ∨ d.pwr.cur = 0) && d.scrubDue d.med.scrubIv && !bit d.pwr.why 0 && d.pwr.resume.isNone then
    let d := if d.pwr.cur = 8 then
        (d.onPwr fun p => { p with resume := some 9, wakeSrc := 4 }).raise 0x019 (leBytes 1 4 ++ leBytes 6 0)
      else d
    (d.onMed fun m => { m with askAt := some d.clk.installed }).request 0
  else d

/-- The ports are powered and start link training (R420, R534, R548). -/
def Drive.portsUp (d : Drive) : Drive :=
  let train := fun (x : PortSt) => { x with link := { x.link with train := true } }
  (d.onPort .a train).onPort .b train

/-- The islands are powered again after PARKED (R405, R482, R534): the bank charges, DRAM runs at 6,400 MT/s with its stored training,
the cipher cores have tested themselves. -/
def Drive.islandsUp (d : Drive) : Drive :=
  let d := d.bankCharging.onDmc fun m => { m with chans := m.chans.map fun c => if c.state = 5 then c else { c with speed := 3 } }
  d.onCry fun c => { c with katAt := some d.clk.life }

/-- READ-ONLY is entered by its drive cause (R527). -/
def Drive.tellReadOnly (m : Nat) (d : Drive) : Drive := if m = 0xB then d.raise 0x002 (leBytes 1 d.pwr.roCause) else d

/-- A pass runs: the one that has not ended, or a new one (R380, R381, R383). -/
def Drive.passHere (d : Drive) : Drive :=
  d.onMed fun m => if m.scrub then m else { m with scrub := true, scrubAt := d.clk.life, scrubSeg := 0, refPass := 0 }

/-- 12 V is granted (R533, R536): a wake goes on; a scrub wake enters SCRUB and keeps PWR_REQ# low. -/
def Drive.granted (d : Drive) : Drive :=
  let d := d.onPwr fun p => { p with good := true, mainOk := true }
  if d.pwr.cur = 8 then
    match d.pwr.resume with
    | none => d
    | some 9 =>
      let d := d.onPwr fun p => { p with resume := none }
      (d.islandsUp.goMode 9).passHere
    | some _ => d.onPwr fun p => { p with req := false, why := 0 }
  else d

/-- Resume is complete (R534), or the drive turns from SCRUB to its last mode (R522). -/
def Drive.resumed (d : Drive) : Drive :=
  match d.pwr.resume with
  | none => d
  | some m =>
    if (d.pwr.cur = 8 && m != 9 && d.pwr.good && d.pwr.mainOk) || d.pwr.cur = 9 then
      let d := if d.pwr.cur = 8 then d.islandsUp else d
      let d := d.onPwr fun p => { p with resume := none, req := false, why := 0, idleAt := d.clk.life }
      (d.portsUp.jackOff.goMode m).tellReadOnly m
    else d

/-- A pass ends in SCRUB, or the board withdraws its grant (R536): the drive parks and releases PWR_REQ#. -/
def Drive.scrubPark (d : Drive) : Drive :=
  if d.pwr.cur = 9 then (d.park).onPwr fun p => { p with req := false, why := 0 } else d

/-! Thermal limits (R518, R645): 85 and 95 degrees in units of 0.1. -/

def warnLimit : Int := 850
def shutLimit : Int := 950

/-- The case sensor reads `t` at life clock `now`. -/
def Pwr.sensed (now : Nat) (t : BitVec 16) (p : Pwr) : Pwr := { p with temp := t, hotAt := if warnLimit - 50 < t.toInt then now else p.hotAt }

/-- The case sensor passes its warning limit. -/
def Drive.thermalWarn (t : BitVec 16) (d : Drive) : Drive :=
  let was := d.pwr.capTherm
  let d := d.onPwr (Pwr.sensed d.clk.life t)
  if t.toInt > warnLimit ∧ was ≠ 1 ∧ d.pwr.cur ≠ 0 ∧ d.pwr.cur ≠ 8 then
    (((d.onPwr fun p => { p with capTherm := 1 }).raise 0x003 (leBytes 2 t.toNat)).refreshCap).retarget
  else d

/-- The cap returns when the sensor has stayed 5 degrees below the limit for 60 s; a drive held in RESET goes on below the limit (R518). -/
def Drive.thermalRecover (t : BitVec 16) (d : Drive) : Drive :=
  let d := d.onPwr fun p => { p.sensed d.clk.life t with shut := p.shut && decide (warnLimit ≤ t.toInt) }
  if t.toInt ≤ warnLimit - 50 && decide (d.pwr.hotAt + 60000000000 ≤ d.clk.life) then ((d.onPwr fun p => { p with capTherm := 3 }).refreshCap).retarget else d

/-- The sensor passes its shutdown limit. -/
def State.thermalShut (t : BitVec 16) (f : Flush) (s : State) : State :=
  let d := s.d.onPwr fun p => { p with temp := t }
  if t.toInt > shutLimit ∧ d.pwr.holdsUp then
    ({ s with d := (d.onPwr fun p => { p with shut := true }).raise 0x004 (leBytes 2 t.toNat) } : State).holdUp 2 f
  else { s with d := d }

/-! The always-on supply (R603, R613-R615, R623, R624, R639, R447). -/

/-- The always-on supply is lost: it happens only where 12 V feeds nothing. (log 75 DEDUCED) -/
def Drive.auxLost (d : Drive) : Drive :=
  if d.pwr.cur = 0 ∨ d.pwr.cur = 8 then
    let newest := d.evr.carousel.getLast?
    let seq := match newest with
      | some r => r.seq + 4097
      | none => 4097
    let life := match newest with
      | some r => max d.clk.lifeJour r.life
      | none => d.clk.lifeJour
    let d := { d with
      clk := { d.clk with life := life + 40, lifeJour := life + 40, wallSet := false, wall := 0, wallRun := 0, wallErr := 0, wallBack := false
                          timeErr := false, installed := d.clk.instJour, instNs := 0 }
      evr := { d.evr with front := [], nextSeq := if newest.isNone && d.evr.nextSeq = 1 then 1 else seq, lostNew := 0 }
      jack := .reset
      mgmt := { d.mgmt with secReq := false } }
    d.onPwr fun p => { p with aux := false, wakeSrc := 0, share := false, pinEn := true, alarm := 0, why := 0, req := false, resume := none }
  else d.onPwr fun p => { p with aux := false }

/-- The always-on supply rises (R522, R630, R634): RESET, with the SLOT_ID pins sampled. -/
def Drive.auxRises (slot : BitVec 3) (d : Drive) : Drive :=
  let d := if d.pwr.cur = 0 ∧ d.pwr.aux then d else d.toReset
  { d with
    pwr := { d.pwr with aux := true }
    evr := { d.evr with lost := 0 }
    mgmt := { d.mgmt with slotId := slot, addr := if d.mgmt.addr = 0x58 + d.mgmt.slotId.toNat then 0x58 + slot.toNat else d.mgmt.addr } }

/-! Rows. -/

def execMainPowerLoss (f : Flush) (s : State) : Host.Outcome State Fault Refusal := .next (s.mainLoss f)

/-- R408: 12 V between 10.0 and 10.8 V changes nothing else. -/
def execPwrMainLow (mv : Nat) (s : State) : Host.Outcome State Fault Refusal :=
  let seen := decide (10000 ≤ mv) && decide (mv ≤ 10800)
  .next { s with d := if seen then s.d.raise 0x013 (leBytes 2 mv) else s.d }

def execAutoIdle (s : State) : Host.Outcome State Fault Refusal := .next { s with d := s.d.autoIdle }

def execIdleEntryDone (s : State) : Host.Outcome State Fault Refusal := .next { s with d := s.d.idleEntry }

def execIdleExitDone (s : State) : Host.Outcome State Fault Refusal := .next { s with d := s.d.idleExit }

def execParkDrainDone (s : State) : Host.Outcome State Fault Refusal := .next { s with d := s.d.parkDrain }

/-- The configuration store is written at entry to PARKED from mode `old` (R553). -/
def State.storeOnPark (old : Nat) (s : State) : State := if old ≠ 8 ∧ s.d.pwr.cur = 8 then s.storeConfig else s

def execParkPowerDown (s : State) : Host.Outcome State Fault Refusal := .next (({ s with d := s.d.parkDown } : State).storeOnPark s.d.pwr.cur)

/-- R532: WAKE# wakes the drive when `PWR_WAKE.PINEN` is set. -/
def execWakePin (s : State) : Host.Outcome State Fault Refusal :=
  .next { s with d := if s.d.pwr.pinEn then s.d.wakeFrom 1 1 0 else s.d }

/-- R532, R537: the installed time has reached `PWR_ALARM`, which is then cleared. -/
def execRtcAlarm (s : State) : Host.Outcome State Fault Refusal :=
  .next { s with d :=
    if s.d.pwr.alarm ≠ 0 ∧ s.d.pwr.alarm ≤ s.d.clk.installed then (s.d.wakeFrom 3 2 0).onPwr fun p => { p with alarm := 0 } else s.d }

def execRtcScrubWake (s : State) : Host.Outcome State Fault Refusal := .next { s with d := s.d.scrubWake }

def execPowerGrant (s : State) : Host.Outcome State Fault Refusal := .next { s with d := s.d.granted }

def execResumeDone (s : State) : Host.Outcome State Fault Refusal := .next { s with d := s.d.resumed }

/-- R536, R632. -/
def execPwrGoodLow (s : State) : Host.Outcome State Fault Refusal :=
  .next (({ s with d := (s.d.onPwr fun p => { p with good := false }).scrubPark } : State).storeOnPark s.d.pwr.cur)

def execThermalWarn (temp : BitVec 16) (s : State) : Host.Outcome State Fault Refusal := .next { s with d := s.d.thermalWarn temp }

def execThermalRecover (temp : BitVec 16) (s : State) : Host.Outcome State Fault Refusal := .next { s with d := s.d.thermalRecover temp }

def execThermalShutdown (temp : BitVec 16) (f : Flush) (s : State) : Host.Outcome State Fault Refusal := .next (s.thermalShut temp f)

def execResetAssert (f : Flush) (s : State) : Host.Outcome State Fault Refusal := .next (s.resetLow f)

def execAuxRise (slot : BitVec 3) (s : State) : Host.Outcome State Fault Refusal := .next { s with d := s.d.auxRises slot }

def execAuxLoss (s : State) : Host.Outcome State Fault Refusal := .next { s with d := s.d.auxLost }

/-- R624: 12 V still feeds the always-on island (R623). -/
def execAuxBelowRange (s : State) : Host.Outcome State Fault Refusal :=
  .next { s with d := if s.d.pwr.cur = 0 ∨ s.d.pwr.cur = 8 then s.d else s.d.onPwr fun p => { p with aux := false } }

/-- R522, R630: 12 V, PWR_GOOD and RESET# have been good together for 100 ms; the bank begins to charge (R405). A third retired
DRAM channel holds the drive in RESET (R504). -/
def execBootEntry (s : State) : Host.Outcome State Fault Refusal :=
  .next { s with d :=
    if s.d.pwr.cur = 0 && !s.d.pwr.shut && s.d.pwr.aux && s.d.dmc.retired < 3 then
      (((s.d.onPwr fun p => { p with resetN := true, good := true, mainOk := true }).bankCharging).enterMode 1).onPwr fun p => { p with trans := 0 }
    else s.d }

end Sys2Proof.Machine
end

