-- ==== Sys2Proof/Machine/Events.lean ====
section
/-! DEFINITION. The recorder and the clocks: records on their way to the carousel and the birth area, freezes, LOGREAD page 2, the
wall time (17). -/

namespace Sys2Proof.Machine

/-! Records (R601-R608). -/

/-- Slots of the carousel (R605). -/
def carouselSlots : Nat := 1048576

/-- Flash is powered and replay is over. -/
def Pwr.flashOn (p : Pwr) : Bool := p.active || p.cur == 9 || p.cur == 0xB

/-- The oldest record of the front buffer moves into the carousel; records 1 to 4,096 are programmed into the birth area. A record of
the losses follows once there is room (R607). -/
def State.moveRecord (s : State) : State :=
  match s.d.evr.front with
  | [] => s
  | r :: rest =>
    if s.d.pwr.flashOn && s.d.evr.freeze.isNone then
      let early := decide (r.seq ≤ 4096)
      let d := s.d.onEvr fun e =>
        { e with front := rest, carousel := (e.carousel.filter fun x => decide (r.seq < x.seq + carouselSlots)) ++ [r]
                 birth := if early then e.birth + 1 else e.birth }
      let d := d.onMed (Med.asideWrite 3 64)
      let n := d.evr.lostNew
      let d := if n = 0 then d else (d.onEvr fun e => { e with lostNew := 0 }).raise 0x1F0 (leBytes 4 n)
      { s with nv := if early then s.nv.birth r else s.nv, d := d }
    else s

/-! Freezes (R609, R610). -/

/-- Newest and oldest sequence number in the carousel, 0 when it is empty. -/
def Evr.newest (e : Evr) : Nat := match e.carousel.getLast? with
  | some r => r.seq
  | none => 0
def Evr.oldest (e : Evr) : Nat := match e.carousel with
  | r :: _ => r.seq
  | [] => 0

/-- The turn of EVFREEZE. Records that wait in the front buffer are held by the freeze too; with 3,584 of them it lifts at once (R610). -/
def Drive.turnEvfreeze (c : Ctx) (d : Drive) : Drive :=
  let d := d.onEvr fun e => { e with freeze := some d.clk.life, front := e.front.map fun r => { r with frozen := true } }
  (d.refuse c { b := leBytes 8 d.evr.newest }).frontCheck

/-- The turn of EVTHAW. -/
def Drive.turnEvthaw (c : Ctx) (d : Drive) : Drive :=
  (d.onEvr fun e => if e.freeze.isSome then { e with freeze := none, lift := 1 } else e).refuse c {}

/-- ms before a freeze lifts by time. -/
def Drive.freezeLeft (d : Drive) : Nat :=
  match d.evr.freeze with
  | none => 0
  | some t => (t + 10000000000 - d.clk.life) / 1000000

/-- 10 s have passed since the last EVFREEZE. -/
def Drive.freezeOver (d : Drive) : Drive :=
  match d.evr.freeze with
  | none => d
  | some t => if t + 10000000000 ≤ d.clk.life then d.liftFreeze 3 2 else d

/-! LOGREAD page 2 (R611, R612). -/

/-- The valid record of a birth-area slot, as bytes. -/
def Nv.birthSlot (i : Nat) (v : Nv) : Option Bytes :=
  let b := v.read (birthBase + 64 * i) 64
  if slice b 0x38 4 == ascii "EVRV" && le b 0x3C 4 == (crc32 (b.take 0x3C)).toNat then some b else none

/-- The record in slot `i` of an area: 0 birth, 1 carousel. -/
def State.recorderSlot (area i : Nat) (s : State) : Bytes :=
  if area = 0 then (s.nv.birthSlot i).getD (fill 64 0)
  else
    match s.d.evr.carousel.find? fun r => (r.seq - 1) % carouselSlots == i with
    | some r => r.bytes
    | none => fill 64 0

/-- Slots of an area. -/
def areaSlots (area : Nat) : Nat := if area = 0 then 4096 else carouselSlots

/-- The header of the page. -/
def State.recorderHeader (area : Nat) (s : State) : Bytes :=
  let e := s.d.evr
  let seqs := (List.range 4096).filter fun i => (s.nv.birthSlot i).isSome
  let newest := if area = 0 then (match seqs.getLast? with
    | some i => i + 1
    | none => 0) else e.newest
  let oldest := if area = 0 then (match seqs.head? with
    | some i => i + 1
    | none => 0) else e.oldest
  padTo 64 (leBytes 1 area ++ leBytes 1 (bitAt 0 e.freeze.isSome) ++ leBytes 2 e.front.length ++ leBytes 4 (areaSlots area) ++ leBytes 8 newest
    ++ leBytes 8 oldest ++ leBytes 8 (e.nextSeq - 1) ++ leBytes 4 e.lost ++ leBytes 4 s.d.freezeLeft)

/-- `n` bytes of the page from a byte offset that is a multiple of 64. -/
def State.recorderPage (area off n : Nat) (s : State) : Bytes :=
  (((List.range ((n + 63) / 64)).flatMap fun i =>
    if off / 64 + i = 0 then s.recorderHeader area else s.recorderSlot area (off / 64 + i - 1))).take n

/-! The clocks (R613-R615). -/

/-- The life clock and the installed time are journalled. -/
def Drive.journalClock (d : Drive) : Drive :=
  if d.pwr.flashOn then d.onClk fun c => { c with lifeJour := c.life, instJour := c.installed } else d

/-- A write to `EVR_TCMD` with the staged value of its path. (log 67 DEDUCED) -/
def Drive.timeCmd (staged : Nat) (v : Word) (d : Drive) : Drive :=
  let n := v.toNat
  if field n 24 8 ≠ 0x54 then d.onClk fun c => { c with timeErr := true }
  else if !bit n 0 then d
  else
    let old := d.clk.wallTime
    let unset := !d.clk.wallSet
    let back := decide (staged < old)
    let d := d.onClk fun c =>
      { c with wallSet := staged != 0, wall := staged, wallRun := 0, wallErr := 0, wallBack := back }
    d.raise 0x005 (leBytes 8 old ++ leBytes 8 staged ++ leBytes 1 (bitAt 0 back + bitAt 1 unset))

/-! Rows. -/

def execRecordMove (s : State) : Host.Outcome State Fault Refusal := .next s.moveRecord

def execFreezeTimeout (s : State) : Host.Outcome State Fault Refusal := .next { s with d := s.d.freezeOver }

def execLifeClockJournal (s : State) : Host.Outcome State Fault Refusal := .next { s with d := s.d.journalClock }

end Sys2Proof.Machine
end

