-- ==== Sys2Proof/Machine/Crypto.lean ====
section
/-! DEFINITION. The crypto island: key blobs, tenants and slots, the sharing of the cores, alarms, self-tests, the register digest
contexts (12). -/

namespace Sys2Proof.Machine

/-! The drive key pair (R457, R459). -/

/-- The private scalar. -/
def driveScalar : Nat :=
  let k := beNat (hkdfSha384 Config.deviceSecret (ascii "CRK72 drive key pair") 48) % p384N
  if k = 0 then 1 else k

/-- The storage root key, which a new sanitize nonce changes, and the tenant root key (R455, R457). -/
def Drive.storageRoot (d : Drive) : Bytes := hkdfSha384 Config.deviceSecret (ascii "CRK72 storage root" ++ d.upd.nonce) 32
def tenantRoot : Bytes := hkdfSha384 Config.deviceSecret (ascii "CRK72 tenant root") 32

/-- The wrapped copies on flash of the keys that are in use: persistent slots, the drive's own cipher key, metadata key and token keys
under the storage root key, tenant keys under the tenant root key, media keys under the cipher keys of their slots (R455). -/
def Drive.keyCopies (d : Drive) : List Bytes :=
  let s := d.kvx.store
  let own := [s.driveKey, s.metaKey, s.tokCur, s.tokPrev].filter fun b => !b.isEmpty
  (((s.slots.filter (·.persistent)).map (·.key) ++ own).map (keyWrap d.storageRoot)) ++ s.tenants.map (fun t => keyWrap tenantRoot t.key)
    ++ (s.kss.filter (·.mediaKey.isSome)).map (·.wrapped)

/-- The public key as its two 48-byte strings. -/
def drivePublic : Bytes × Bytes :=
  match ptScale driveScalar p384G with
  | some (x, y) => (beBytes 48 x, beBytes 48 y)
  | none => ([], [])

/-! Key blobs (R460-R466). -/

/-- Check 1 of R462 on the blob alone: type, kind, tenant, role and reserved bytes. -/
def blobShape (b : Bytes) : Bool :=
  let kind := byteAt b 1
  let zero := fun (o n : Nat) => (slice b o n).all (· == 0)
  b.length == 192 && byteAt b 0 == 1 && zero 0x0A 6 && zero 0xA8 8 && decide (byteAt b 9 < 2) &&
    (if kind = 0 then decide (le b 2 2 ≤ 0x1FFF) && le b 4 4 == 0 && byteAt b 8 == 0
     else kind == 1 && le b 2 2 == 0 && le b 4 4 != 0 && le b 4 4 != 0xFFFFFFFF && decide (byteAt b 8 ≤ 1))

/-- Checks 2 to 6 of R462: the key the blob carries, or the reason it fails. -/
def blobKey (scalar serial : Nat) (b : Bytes) : Except Nat Bytes :=
  let x := beNat (slice b 0x20 48)
  let y := beNat (slice b 0x50 48)
  if le b 0x18 8 ≠ Config.identity then .error 1
  else if le b 0x10 8 ≤ serial then .error 2
  else if !onCurve x y then .error 3
  else
    let keys := hkdfSha256 (slice b 0x10 16) (beBytes 48 (ecdhX scalar x y)) (slice b 0 16) 64
    if gcmTag (keys.drop 32) (slice b 0x10 8 ++ fill 4 0) (slice b 0 0xB0) [] ≠ slice b 0xB0 16 then .error 4
    else
      match keyUnwrap (keys.take 32) (slice b 0x80 40) with
      | some k => if k.length = 32 then .ok k else .error 5
      | none => .error 5

/-- A key blob fails (R462): `reason` is result byte 0x08. -/
def Drive.blobFails (reason kind : Nat) (d : Drive) : Drive :=
  (d.onCry fun c => { c with blobF := wrap32 (c.blobF + 1) }).raise 0x1C0 (leBytes 1 reason ++ leBytes 1 kind)

/-- The status and result of a failed blob: `BAD_FIELD` for check 1. -/
def blobRes (reason : Nat) : Res := if reason = 0xFF then .badField 9 0xFFFF else .failed stAuthFailed 9 (leBytes 1 reason)

/-- The key of a blob that fits the command's fields, or the reason it fails. -/
def Drive.openBlob (fits : Bool) (b : Bytes) (d : Drive) : Except Nat Bytes :=
  if !(fits && blobShape b) then .error 0xFF else blobKey driveScalar d.cry.blobSer b

/-- The blob serial is accepted at the commit. -/
def Drive.takeSerial (b : Bytes) (d : Drive) : Drive := d.onCry fun c => { c with blobSer := le b 0x10 8 }

/-- The tenant that a change installs. -/
def Drive.tenantEvent (id : Nat) (had : Bool) (d : Drive) : Drive :=
  d.raise 0x099 (leBytes 4 id ++ [Config.tenantKind (if had then 1 else 0)])

/-- Some tenant other than `id` has the role DRIVE_ADMIN. -/
def Store.otherAdmin (id : Nat) (s : Store) : Bool := s.tenants.any fun t => t.admin && t.id != id

/-- Why a tenant cannot be installed or replaced (R77, R138, R169). -/
def Store.tenantFault (id : Nat) (admin : Bool) (s : Store) : Option Res :=
  match s.tenant? id with
  | some t => if t.admin && !admin && !s.otherAdmin id then some (.conflict 10 7 2) else none
  | none => if s.tenants.length ≥ 65536 then some (.quota 10 5 0) else none

/-- What a LOAD of the staging registers reports. -/
def Drive.blobStatus (status reason : Nat) (d : Drive) : Drive :=
  d.onCry fun c => { c with blobBusy := false, blobStatus := status, blobReason := reason }

/-- What refuses a KEYLOAD of a blob before the blob is looked at, from the mode and a running SANITIZE on (R466, R528, R585). -/
def Drive.blobRefused (b : Bytes) (d : Drive) : Option Res :=
  (d.modeFault 0x4C 10).or <| (d.sanitizeFault 0x4C 10).or (d.kvx.store.tenantFault (le b 4 4) (byteAt b 8 == 1))

/-- The staged blob is applied: what KEYLOAD would report is reported. -/
def Drive.blobApply (b : Bytes) (d : Drive) : Drive :=
  match d.blobRefused b with
  | some r => d.blobStatus r.status (byteAt r.b 0)
  | none =>
    if d.cry.p384Bad || d.noCore true true then let r := d.internal; r.2.blobStatus r.1.status (byteAt r.1.b 0)
    else
      match d.openBlob (byteAt b 1 == 1) b with
      | .error e => (d.blobFails e 1).blobStatus (blobRes e).status e
      | .ok key =>
        let id := le b 4 4
        let had := (d.kvx.store.tenant? id).isSome
        (((d.selfCommit [.tenantSet { id := id, key := key, admin := byteAt b 8 == 1 }]).takeSerial b).tenantEvent id had).blobStatus stSuccess 0

/-- A write of `CRY_BLOBCMD.LOAD` (R466); while keys are being restored it waits, as KEYLOAD does (R479). -/
def Drive.blobLoad (p : Path) (b : Bytes) (d : Drive) : Drive :=
  if p ≠ .smbus then d.blobStatus stDenied 0
  else if d.cry.lost then d.onCry fun c => { c with blobBusy := true, blobHeld := some b }
  else d.blobApply b

/-! Clearing (R479, R480). -/

/-- A register context is cleared (R480); the bytes of its message are gone, and `DIG_COUNT` still tells how many they were (R485). -/
def DigCtx.clear (g : DigCtx) : DigCtx :=
  if g.isOpen || g.busy || g.done then
    { g with clr := true, done := false, isOpen := false, busy := false, msg := fill g.msg.length 0, key := [], res := [] }
  else g

/-- The command names an ANCHORED key space, so that what it reports is a token (R65). (log 23 DEDUCED) -/
def Drive.tokenOp (c : Ctx) (d : Drive) : Bool :=
  [0x01, 0x02, 0x04, 0x13].contains c.op && !(snapOp c.op c.e) && (match d.kvx.store.ks? c.e.ksId with
    | some k => k.vclass == .anchored && (c.op == 0x02 || (d.kvx.store.get? c.e.ksId (c.key.getD [])).isSome)
    | none => false)

/-- The command stores bytes, or asks for a stored digest. -/
def Ctx.storesBytes (c : Ctx) : Bool :=
  match c.ops with
  | some os => os.any fun o => [2, 6, 7].contains o.opcode && o.valLen != 0
  | none => [0x02, 0x06, 0x07].contains c.op && c.e.vlen != 0
def Ctx.wantsDigest (c : Ctx) : Bool :=
  match c.ops with
  | some os => os.any fun o => [2, 6, 7].contains o.opcode && bit o.flags 7
  | none => [0x02, 0x06, 0x07].contains c.op && c.e.flag 7

/-- The context computes or checks a keyed value (R480): the GCM tag of a blob and the HMAC that derives its key, unit tags, a token MAC. The
digest context of a write that asks for a DIGEST makes a keyed value once its value is here, the token's MAC. (log 145 DESIGN CHOICE) -/
def Drive.keyedCtx (x : CryCtx) (c : Ctx) (d : Drive) : Bool :=
  if x.digest then c.op == 0x4C || c.op == 0x08 || (d.tokenOp c && (!c.wantsDigest || c.reads.isEmpty))
  else c.op == 0x4C || (c.storesBytes && d.cry.vauth) || !c.tagged.isEmpty

/-- The context's user fails: a command completes `AUTH_FAILED` for a keyed value, `INTERNAL` otherwise (R480). -/
def Drive.ctxCleared (x : CryCtx) (d : Drive) : Drive :=
  if x.cls ≥ 2 then d.onCry fun c => { c with dig := (numbered c.dig).map fun g => if g.1 = x.id then g.2.clear else g.2 }
  else
    match d.kvx.ctxs.find? fun c => c.ord == x.id && !c.settled with
    | none => d
    | some c =>
      d.failNow c (if d.keyedCtx x c then .failed stAuthFailed 9 else .failed stInternal 0xC (leBytes 4 0x0B000001))

/-- Cores 0-15 are AES, 16-23 digest. -/
def Cry.fenced (n : Nat) (c : Cry) : Bool := if n < 16 then bit c.aesFence n else bit c.digFence (n - 16)

/-! Sharing the cores (R473-R476, R481). -/

/-- The context's user still runs: a command not settled, or an open register context of class 2. -/
def Drive.ctxLive (x : CryCtx) (d : Drive) : Bool :=
  if x.cls ≥ 2 then (match d.cry.dig[x.id]? with
    | some g => g.isOpen || g.busy
    | none => false)
  else d.kvx.ctxs.any fun c => c.ord == x.id && !c.settled

/-- Cores of a kind that work. -/
def Cry.coresOf (digest : Bool) (c : Cry) : List Nat :=
  if digest then ((List.range 8).filter fun i => !bit c.digFence i).map (16 + ·) else (List.range 16).filter fun i => !bit c.aesFence i

/-- The core a context runs on. -/
def CryCtx.core (x : CryCtx) : Option Nat :=
  match x.place with
  | .running n => some n
  | _ => none

/-- The context's state stands on the engine, off its core. -/
def CryCtx.isSaved (x : CryCtx) : Bool :=
  match x.place with
  | .saved _ => true
  | _ => false

/-- The lowest core of a kind with no context on it. -/
def Cry.freeCore (digest : Bool) (c : Cry) : Option Nat :=
  (c.coresOf digest).find? fun n => !(c.ctxs.any fun x => x.core == some n)

/-- Nanoseconds of a 4 KiB unit on a core: by the rates of R472, for a digest by its algorithm (commands use SHA-256). -/
def Drive.unitNs (x : CryCtx) (d : Drive) : Nat :=
  let alg := if x.cls < 2 then 0 else ((d.cry.dig[x.id]?).map (·.alg)).getD 0
  if !x.digest then 660 else if alg = 0 ∨ alg = 4 then 1463 else if alg = 3 then 1024 else 1138

/-- Whole units done since the placement. -/
def Drive.ran4k (x : CryCtx) (d : Drive) : Nat := if x.core.isSome then (d.clk.life - x.since) / d.unitNs x else 0

/-- The context's next 4 KiB boundary, which is now when it stands at one. -/
def Drive.boundary (x : CryCtx) (d : Drive) : Nat := x.since + roundUp (d.clk.life - x.since) (d.unitNs x)

/-- A context with its state at hand goes onto core `n`. -/
def Drive.onCore (x : CryCtx) (n : Nat) (d : Drive) : Drive :=
  d.onCry fun c => { c with ctxs := (c.ctxs.filter (· != x)) ++ [{ x with place := .running n, since := d.clk.life, due := none }] }

/-- The context export key (R455). -/
def Drive.exportKeyBytes (d : Drive) : Bytes := (List.range 32).map fun i => Config.freeByte (d.cry.exportKey + i)

/-- Nonce and additional data of an export record (R476): the widths of index and number are open. (log 161 DESIGN CHOICE) -/
def exportNonce (count : Nat) : Bytes := leBytes 8 count ++ fill 4 0
def exportAad (slot id : Nat) : Bytes := leBytes 4 slot ++ leBytes 8 id

/-- What an export record holds of a context: its position, and the state of a GCM or digest computation; an XTS context has no more than its
position (R475). (log 161 DESIGN CHOICE) -/
def Drive.ctxImage (x : CryCtx) (d : Drive) : Bytes :=
  let keyed := x.digest || d.kvx.ctxs.any fun c => c.ord == x.id && d.keyedCtx x c
  padTo 240 (leBytes 8 x.units ++ (if keyed then Config.ctxState x.id x.units else []))

/-- The oldest saved context is exported when more than 64 are saved (R475, R476). -/
def Drive.exportOne (d : Drive) : Drive :=
  match d.cry.ctxs.filter (·.isSaved) with
  | [] => d
  | x :: rest =>
    if rest.length < 64 then d
    else
      let slot := ((List.range (d.cry.records.length + 1)).find? fun i => !(d.cry.records.any fun r => r.slot == i)).getD 0
      let n := d.cry.exportCnt
      let b := gcmSeal d.exportKeyBytes (exportNonce n) (exportAad slot x.id) (d.ctxImage x)
      (d.onCry fun c =>
        { c with ctxs := c.ctxs.map fun y => if y == x then { y with place := .exported slot } else y
                 records := c.records ++ [{ slot := slot, count := n, bytes := b }]
                 exports := wrap32 (c.exports + 1), exportCnt := n + 1 }).dram useExport (4 * slot) 4

/-- A running context leaves core `n`, its state saved on the engine. -/
def Drive.saveCtx (x : CryCtx) (n : Nat) (d : Drive) : Drive :=
  (d.onCry fun c =>
    { c with ctxs := (c.ctxs.filter (· != x)) ++ [{ x with place := .saved n, units := x.units + d.ran4k x, due := none }] }).exportOne

/-- A context takes core `n`. An exported one is imported first: one whose record does not open is treated as cleared (R476). -/
def Drive.resume (x : CryCtx) (n : Nat) (d : Drive) : Drive :=
  match x.place with
  | .exported slot =>
    let gone := fun (d : Drive) => d.onCry fun c => { c with records := c.records.filter fun r => r.slot != slot }
    let d := d.dram useImport (4 * slot) 4
    if (d.cry.records.find? fun r => r.slot == slot).any fun r =>
        (gcmOpen d.exportKeyBytes (exportNonce r.count) (exportAad slot x.id) r.bytes).isSome then gone (d.onCore x n)
    else (gone (d.onCry fun c => { c with ctxs := c.ctxs.filter (· != x) })).ctxCleared x
  | _ => d.onCore x n

/-- Contexts off the cores, highest class and longest wait first. -/
def Drive.offCore (p : CryCtx → Bool) (d : Drive) : List CryCtx :=
  sortLt (fun (a b : CryCtx) => decide (a.cls < b.cls)) (d.cry.ctxs.filter fun x => x.core.isNone && p x)

/-- Free cores go to the contexts that wait for one, new or preempted (R473). -/
def Drive.fillCores (d : Drive) : Drive :=
  (d.offCore fun _ => true).foldl (fun d x => match d.cry.freeCore x.digest with
    | none => d
    | some n => d.resume x n) d

/-- New contexts of a kind that wait for a core. -/
def Drive.askers (digest : Bool) (d : Drive) : List CryCtx := d.offCore fun x => x.digest == digest && x.place == .waiting

/-- The context that makes room for one of class `cls`: of the running ones of its class or a lower one that have completed a unit since
their placement, the one placed first (R474). -/
def Drive.victimCtx (digest : Bool) (cls : Nat) (d : Drive) : Option CryCtx :=
  d.cry.ctxs.find? fun x => x.digest == digest && x.core.isSome && decide (cls ≤ x.cls) && x.due.isNone && decide (1 ≤ d.ran4k x)

/-- For every new context that waits, a running one is chosen to leave its core at its next boundary (R474). -/
def Drive.chooseCtx (digest : Bool) (d : Drive) : Drive :=
  (numbered (d.askers digest)).foldl (fun d w =>
    if w.1 < (d.cry.ctxs.filter fun x => x.digest == digest && x.due.isSome).length then d
    else match d.victimCtx digest w.2.cls with
      | none => d
      | some v => d.onCry fun c => { c with ctxs := c.ctxs.map fun x => if x == v then { x with due := some (d.boundary x) } else x }) d

/-- A context stands at the boundary at which it is to leave its core: for one that waits, or because the core is fenced (R474, R481). -/
def Drive.leaveCore (x : CryCtx) (d : Drive) : Drive :=
  match x.core with
  | none => d
  | some n =>
    if d.cry.fenced n then d.saveCtx x n
    else
      match (d.askers x.digest).find? fun w => decide (w.cls ≤ x.cls) with
      | none => d.onCry fun c => { c with ctxs := c.ctxs.map fun y => if y == x then { y with due := none } else y }
      | some w => ((d.saveCtx x n).resume w n).onCry fun c => { c with preempts := wrap32 (c.preempts + 1) }

/-- The scheduler of the cores: contexts of ended users go, free cores are given out, contexts are chosen to make room, and those at their
boundary leave. -/
def Drive.schedule (d : Drive) : Drive :=
  let d := { d with cry := { d.cry with ctxs := d.cry.ctxs.filter fun x => d.ctxLive x } }
  let d := (d.fillCores.chooseCtx false).chooseCtx true
  ((d.cry.ctxs.filter fun x => x.due.any fun t => decide (t ≤ d.clk.life)).foldl (fun d x => d.leaveCore x) d).fillCores

/-- Context `id` asks for a core. (log 77 DESIGN CHOICE) -/
def Drive.askCore (digest : Bool) (cls id : Nat) (d : Drive) : Drive :=
  (if d.cry.ctxs.any (fun x => x.id == id && x.cls == cls && x.digest == digest) then d
   else d.onCry fun c => { c with ctxs := c.ctxs ++ [{ id := id, cls := cls, digest := digest, place := .waiting }] }).schedule

/-! Alarms (R479-R483). -/

/-- Clears the working state of the cores that `p` names; `exported` says that exported contexts are lost too. -/
def Drive.clearCores (p : Nat → Bool) (exported : Bool) (d : Drive) : Drive :=
  let hit := fun (x : CryCtx) => match x.place with
    | .waiting => false
    | .running n => p n
    | .saved n => p n
    | .exported _ => exported
  let gone := d.cry.ctxs.filter hit
  gone.foldl (fun d x => d.ctxCleared x) (d.onCry fun c => { c with ctxs := c.ctxs.filter (!hit ·), records := if exported then [] else c.records })

/-- The contexts on a core that is fenced leave it at their next boundaries, with their state (R481). (log 133 DEDUCED) -/
def Drive.moveOff (n : Nat) (d : Drive) : Drive :=
  if d.cry.ctxs.any fun x => x.core == some n then
    (d.onCry fun c => { c with ctxs := c.ctxs.map fun x => if x.core == some n then { x with due := some (d.boundary x) } else x }).schedule
  else d

/-- No core of a kind is left: the commands that have a context of the kind complete `INTERNAL` (R483). -/
def Drive.coresGone (digest : Bool) (d : Drive) : Drive :=
  let gone := fun (x : CryCtx) => x.digest == digest && decide (x.cls < 2)
  (d.cry.ctxs.filter gone).foldl (fun d x => match d.kvx.ctxs.find? fun c => c.ord == x.id && !c.settled with
    | some c => let r := d.internal; r.2.failNow c r.1
    | none => d) (d.onCry fun c => { c with ctxs := c.ctxs.filter (!gone ·) })

/-- A core is fenced, in service as a live action, with `CRY_NOCORE` when it was the last of its kind (R483, R575). -/
def Drive.fenceCore (n : Nat) (d : Drive) : Drive :=
  let d := (d.onCry fun c => if n < 16 then { c with aesFence := c.aesFence ||| 2 ^ n } else { c with digFence := c.digFence ||| 2 ^ (n - 16) })
  let d := (if d.pwr.serving then d.startAction 0x0B 0 n false else d).moveOff n
  if n < 16 ∧ d.cry.aesFence = 0xFFFF then (d.raise 0x1C6 [0]).coresGone false
  else if 16 ≤ n ∧ d.cry.digFence = 0xFF then (d.raise 0x1C6 [1]).coresGone true else d

/-- Sets bits of `CRY_ALARM`. -/
def Drive.alarm (bits : Nat) (d : Drive) : Drive := d.onCry fun c => { c with alarm := c.alarm ||| bits }

/-- A bus error on a core's data or key path. -/
def Drive.busError (n : Nat) (d : Drive) : Drive :=
  let d := ((d.alarm 8).raise 0x1C2 (leBytes 1 8 ++ leBytes 1 n)).clearCores (· == n) false
  let d := d.onCry fun c =>
    { c with busErrs := (c.busErrs.filter fun x => decide (d.clk.life < x.2 + 3600000000000)) ++ [(n, d.clk.life)] }
  if (d.cry.busErrs.filter fun x => x.1 == n).length ≥ 3 && !d.cry.fenced n then (d.raise 0x1C5 (leBytes 1 n)).fenceCore n else d

/-- A new context export key, with which every exported context is lost (R455). -/
def Drive.newExportKey (d : Drive) : Drive := { d with cry := { d.cry with exportKey := d.free, exportCnt := 0 }, free := d.free + 32 }

/-- An alarm of the whole island: bit `b` of `CRY_ALARM`. -/
def Drive.islandAlarm (b : Nat) (d : Drive) : Drive :=
  let d := ((d.alarm (2 ^ b)).raise 0x1C2 (leBytes 1 (2 ^ b) ++ leBytes 1 0)).clearCores (fun _ => true) true
  (d.onCry fun c => { c with dig := c.dig.map DigCtx.clear }).newExportKey

/-- The tamper sensor: the key store is cleared, and keys without a wrapped copy are gone for good. -/
def Drive.tamper (d : Drive) : Drive :=
  let d := (d.islandAlarm 2).onCry fun c => { c with lost := true }
  d.selfCommit ((d.kvx.store.slots.filter (!·.persistent)).map fun s => .slotDrop s.slot)

/-- Every key with a wrapped copy is back: cipher keys, media keys, token keys, tenant keys; a LOAD that waited goes on. (log 78 DEDUCED) -/
def Drive.keysRestored (d : Drive) : Drive :=
  if d.cry.lost then
    let d' := (d.onCry fun c => { c with lost := false, blobHeld := none }).raise 0x1C7 (leBytes 2 d.keyCopies.length)
    match d.cry.blobHeld with
    | some b => d'.blobApply b
    | none => d'
  else d

/-- A self-test of a core fails. -/
def Drive.katFails (n : Nat) (d : Drive) : Drive :=
  if d.cry.fenced n then d
  else (((d.alarm 16).raise 0x1C3 (leBytes 1 n)).clearCores (· == n) false).fenceCore n

/-- A round of self-tests runs, or is due: 24 hours of life clock after the last one (R482). -/
def Drive.katDue (d : Drive) : Bool :=
  d.cry.katRun || !(d.cry.katAt.any fun t => decide (d.clk.life < t + 86400000000000))

/-- Self-tests of some cores end; `done` ends the round (R482). -/
def Drive.katRound (aes dig : Nat) (done : Bool) (d : Drive) : Drive :=
  let bad := ((List.range 16).filter (bit aes)) ++ ((List.range 8).filter (bit dig)).map (16 + ·)
  let d := bad.foldl (fun d n => d.katFails n) d
  d.onCry fun c => { c with katRun := !done, katAt := if done then some d.clk.life else c.katAt }

/-! Register digest contexts (R477, R478, R485). -/

/-- Length of a digest of an algorithm, by its code. -/
def digest (alg : Nat) (key m : Bytes) : Bytes :=
  match alg with
  | 0 => sha256 m
  | 1 => sha384 m
  | 2 => sha512 m
  | 3 => sha3_256 m
  | 4 => hmacSha256 key m
  | 5 => hmac sha384 128 key m
  | _ => hmac sha512 128 key m

def Drive.onDig (i : Nat) (f : DigCtx → DigCtx) (d : Drive) : Drive :=
  d.onCry fun c => { c with dig := (numbered c.dig).map fun g => if g.1 = i then f g.2 else g.2 }

/-- A write to `DIG_CTL`. -/
def Drive.digCtl (i : Nat) (v : Word) (d : Drive) : Drive :=
  let n := v.toNat
  let alg := field n 16 4
  let slot := field n 0 13
  let key := d.kvx.store.slotKey slot
  if !bit n 31 then d.onDig i fun g => { g with alg := alg, slot := slot }
  else if alg ≥ 7 ∨ (alg ≥ 4 ∧ key.isNone) then d.onDig i fun g => { g with err := true }
  else
    d.onDig i fun g => { g with alg := alg, slot := slot, isOpen := true, busy := false, done := false, msg := [], res := []
                                key := if alg ≥ 4 then key.getD [] else [] }

/-- The staged word, its first `n` bytes. -/
def DigCtx.staged (n : Nat) (g : DigCtx) : Bytes := (leBytes 4 g.wlo ++ leBytes 4 g.whi).take n

/-- A write to `DIG_DATA`. -/
def Drive.digData (i : Nat) (v : Word) (d : Drive) : Drive :=
  if bit v.toNat 0 then
    d.onDig i fun g => if g.isOpen then { g with msg := g.msg ++ g.staged 8 } else { g with err := true }
  else d

/-- A write to `DIG_LAST`. -/
def Drive.digFinal (i : Nat) (v : Word) (d : Drive) : Drive :=
  let n := field v.toNat 0 4
  d.onDig i fun g =>
    if g.isOpen && decide (n ≤ 8) then { g with msg := g.msg ++ g.staged n, isOpen := false, busy := true } else { g with err := true }

/-- The digest is in `DIG_RES`. -/
def Drive.digDone (i : Nat) (d : Drive) : Drive :=
  if d.cry.digFence = 0xFF ∨ d.islState 7 ≠ 0 then d
  else d.onDig i fun g => if g.busy then { g with busy := false, done := true, res := digest g.alg g.key g.msg } else g

/-! Rows. -/

def execCipherPreempt (digest : Bool) (cls ctx : Nat) (s : State) : Host.Outcome State Fault Refusal :=
  .next { s with d := s.d.askCore digest cls ctx }

def execKatRound (aesFail : BitVec 16) (digFail : BitVec 8) (done : Bool) (s : State) : Host.Outcome State Fault Refusal :=
  .next { s with d := if s.d.katDue then s.d.katRound aesFail.toNat digFail.toNat done else s.d }

def execCryBusError (core : Fin 24) (s : State) : Host.Outcome State Fault Refusal := .next { s with d := s.d.busError core.val }

def execCryVoltageAlarm (s : State) : Host.Outcome State Fault Refusal := .next { s with d := s.d.islandAlarm 0 }

def execCryClockAlarm (s : State) : Host.Outcome State Fault Refusal := .next { s with d := s.d.islandAlarm 1 }

def execCryTamperAlarm (s : State) : Host.Outcome State Fault Refusal := .next { s with d := s.d.tamper }

def execCryKeysRestored (s : State) : Host.Outcome State Fault Refusal := .next { s with d := s.d.keysRestored }

def execDigDone (ctx : Fin 4) (s : State) : Host.Outcome State Fault Refusal := .next { s with d := s.d.digDone ctx.val }

end Sys2Proof.Machine
end

