-- ==== Sys2Proof/Machine/DramFail.lean ====
section
/-! DEFINITION. Failures of DRAM: uncorrectable lines, replays, the loss of protected staging (13). -/

namespace Sys2Proof.Machine

/-- The power-loss sequence with 12 V still present (R503, R504); how long it takes is open. With `whole` protected staging is programmed,
but for the records `bad`. -/
def State.dramStop (whole : Bool) (bad : List Nat) (s : State) : State :=
  let n := s.d.drawNat
  let f : Flush := { sealed := true, ckpt := true, ms := n.1 % 121 }
  if n.2.pwr.holdsUp then ({ s with d := n.2.holdUp 3 whole f bad } : State).storeConfig else { s with d := n.2 }

/-- Data of commands past their turns in protected staging, or both copies of a mirrored line, are lost (R500, R503): the event, then the
power-loss sequence. `bad` is the record that is known to be lost; where none is named, replay finds out what is missing (R414). -/
def State.stageLost (ch : Nat) (bad : List Nat) (s : State) : State :=
  ({ s with d := s.d.raise 0x1E4 (leBytes 1 ch) } : State).dramStop (!bad.isEmpty) bad

/-- A channel is retired (R502, R503). `lost` says that its salvage cannot read staged data of a command past its turn, `bad` which record. -/
def State.retire (ch : Nat) (lost : Bool) (bad : List Nat) (s : State) : State :=
  let s' := { s with d := s.d.retireChannel ch }
  if lost then ({ s' with d := s'.d.channelGone ch } : State).stageLost ch bad else s'

/-- A retirement ends; a third one ends in RESET after its flush (R504). (log 62 DEDUCED) -/
def State.retired (ch : Nat) (s : State) : State :=
  let s' := { s with d := s.d.channelGone ch }
  if 3 ≤ s'.d.dmc.retired then s'.dramStop true [] else s'

/-- The retirements whose time is over end. -/
def State.retireEnds (s : State) : State :=
  ((List.range 4).filter fun n => (s.d.dmc.chan n).retEnd.any fun t => decide (t ≤ s.d.clk.life)).foldl (fun s n => s.retired n) s

/-- The descriptor of the value of operation `i` of a command, none where its bytes stand in the SQE or the batch list. -/
def Ctx.valueDesc (i : Nat) (c : Ctx) : Option Bytes :=
  match c.ops with
  | some os => os[i]?.bind (·.desc)
  | none => if c.e.inlineValue then none else some (slice c.e.val 0 16)

/-- A staged value is lost before its command's turn (R281, R282): it is read again from host memory, and staged when all data is here;
the bytes of an inline value are written again from the context. -/
def Drive.restage (id : Nat) (d : Drive) : Drive :=
  match d.kvx.staged.find? fun s => s.recId == id && s.serial.isNone && s.len != 0 with
  | none => d
  | some st =>
    match d.ctx? st.sq st.ord with
    | none => d
    | some c =>
      if !c.alive || c.fail.isSome then d
      else
        match (c.valueDesc st.op).map fun x => valueReads st.op true x st.len 0x50 with
        | some (.ok (rs, _)) =>
          ((d.onKvx fun k => k.dropStaged [id] d.clk.life).onCtx st.sq st.ord fun c =>
            { c with reads := c.reads ++ rs, vals := c.vals.filter (·.1 != st.op) }).pump c.conn
        | _ => d.dram useStaging (recLine id) (linesOf st.len)

/-- The frame of an index page is lost (R499): a clean page leaves the cache and is read again from flash; a dirty one is rebuilt in its
place. -/
def Drive.pageBad (frame : Nat) (d : Drive) : Drive :=
  let gone := d.idx.cached.filter fun c =>
    c.frame == frame && !(d.idx.pages.any fun p => p.ks == c.ks && p.no == c.no && p.dirty)
  if gone.isEmpty then d else d.index (·.pageOut gone)

/-- What the drive does with the data of a bad line that is not lost: staged values, index pages, cached values (R499). Mirrored regions,
metadata and firmware memory are repaired in place. -/
def Drive.mendLine (region : Nat) (holds : Option Nat) (d : Drive) : Drive :=
  match holds with
  | none => d
  | some id =>
    if region = 0 then d.restage id
    else if region = 9 then d.pageBad id
    else if region = 0xA then d.onDmc fun m => { m with vals := m.vals.filter (·.1 != id) }
    else d

/-- The record is staged for a command past its turn. -/
def Kvx.pastTurn (id : Nat) (k : Kvx) : Bool := k.staged.any fun s => s.recId == id && s.serial.isSome

/-- An uncorrectable line (R499-R501). `holds` is what stands in it: the record of a staged (region 0) or cached (0xA) value, the frame of
an index page (9). -/
def State.badLine (ch : Nat) (sub : Bool) (region addr : Nat) (holds : Option Nat) (mirrorOk : Bool) (s : State) : State :=
  let c := s.d.dmc.chan ch
  if c.state = 5 ∨ s.d.pwr.cur = 0 ∨ s.d.pwr.cur = 8 then s
  else
    let recent := (c.ueAt.filter fun t => decide (s.d.clk.life < t + 3600000000000)) ++ [s.d.clk.life]
    let d := s.d.onDmc fun m => m.onChan ch fun c =>
      { c with ue := wrap32 (c.ue + 1), ueAt := recent, errAddr := addr, errSub := sub, errReg := region, errVal := true }
    let d := d.raise 0x1E1 (leBytes 1 ch ++ leBytes 1 (bitAt 0 sub) ++ leBytes 1 region ++ leBytes 8 addr)
    let bad := if region = 0 then holds.toList.filter fun id => d.kvx.pastTurn id else []
    let lost := !bad.isEmpty || (mirrored region && !mirrorOk)
    let s' := { s with d := if lost then d else d.mendLine region holds }
    if recent.length > 16 then s'.retire ch lost bad else if lost then s'.stageLost ch bad else s'

/-- A replay ends (R497, R498). -/
def State.replayed (ch : Nat) (ok lost : Bool) (s : State) : State :=
  let c := s.d.dmc.chan ch
  if c.state ≠ 1 then s
  else if ok then
    { s with d := s.d.onDmc fun m => (m.onChan ch fun c => { c with state := 0, fails := 0, replays := wrap32 (c.replays + 1) }).resume ch }
  else
    let d := s.d.onDmc fun m => m.onChan ch fun c => { c with fails := c.fails + 1, replayF := wrap32 (c.replayF + 1) }
    let s' := { s with d := d.raise 0x1E2 (leBytes 1 ch) }
    if 3 ≤ c.fails + 1 then s'.retire ch lost [] else s'

def execDramUncorrectable (ch : Fin 4) (sub : Bool) (region : Nat) (addr : BitVec 64) (holds : Option Nat) (mirrorOk : Bool) (s : State) :
    Host.Outcome State Fault Refusal := .next (s.badLine ch.val sub region addr.toNat holds mirrorOk)

/-- R497: the subchannel stops and its retry buffer is replayed. -/
def execParityAlert (ch : Fin 4) (sub : Bool) (s : State) : Host.Outcome State Fault Refusal :=
  .next { s with d := s.d.onDmc fun m =>
    let m' := m.onChan ch.val fun c =>
      if c.state = 5 then c else { c with par := wrap32 (c.par + 1), state := if c.state = 0 then 1 else c.state }
    if (m.chan ch.val).state ≤ 1 then m'.halt ch.val sub else m' }

def execReplayComplete (ch : Fin 4) (ok stagedLost : Bool) (s : State) : Host.Outcome State Fault Refusal :=
  .next (s.replayed ch.val ok stagedLost)

end Sys2Proof.Machine
end

