-- ==== Sys2Proof/Machine/Media.lean ====
section
/-! DEFINITION. Flash media: channels, dies, retirement, the recovery ladder, chunk and pack programs, folding, garbage collection,
the scheduling epoch, scrubbing, index rebuilds (08, 09). -/

namespace Sys2Proof.Machine

/-! Dies in service (R345, R371-R377). -/

/-- The calibrated entry of a die (R345, R380). (log 58 DESIGN CHOICE) -/
def Med.entry (i : Nat) (m : Med) : Nat :=
  match (m.die i).entry with
  | some e => e % 16
  | none => 0

def Die.retBlk (d : Die) : Nat := sumBy id d.ret

/-- Retired blocks of dies in service. -/
def Med.retiredBlocks (m : Med) : Nat := sumBy (fun (x : Nat × Die) => if x.2.state == 3 then 0 else x.2.retBlk) m.dies

def Med.vacancies (m : Med) : Nat := sumBy (fun (x : Nat × Channel) => x.2.vacant.length) m.chans

/-- The spare margin in GiB (R374, R375): a block holds 60 MiB after parity and a position 240 GiB. (log 59 DEDUCED) -/
def Med.margin (m : Med) : Nat :=
  (1873 + (if m.chLost.isSome then 3072 else 0) - 240 * m.vacancies) - (60 * m.retiredBlocks + 1023) / 1024

/-- Usable frames (R339, R373): at each die position as many as the worst plane of any channel has good blocks there; none where two channels
are lacking, as no layout lacks two. (log 148 DESIGN CHOICE) -/
def Med.usable (m : Med) : Nat :=
  sumBy (fun p =>
    let l := m.lackers (1024 * p)
    if l.length ≥ 2 then 0
    else 1024 - ((m.dies.filter fun x => x.2.state != 3 && x.2.pos == p && !l.contains (x.1 / 16)).map fun x => x.2.ret.foldl max 0).foldl max 0)
    (List.range 15)

/-- Frames and margin are told anew: the margin event, READ-ONLY at margin 0 (R374, R377). -/
def Drive.marginCheck (d : Drive) : Drive :=
  let d := d.onMed fun m => { m with frames := m.usable }
  let g := d.med.margin
  let d := if g < 512 then d.raise 0x021 (leBytes 4 g) else d
  if g = 0 then d.wantReadOnly 2 else d

/-- The event of a die position (R600). -/
def Drive.dieEvent (c pos die phase : Nat) (d : Drive) : Drive :=
  d.raise (0x100 + 4 * c + 3) (leBytes 1 pos ++ leBytes 1 die ++ leBytes 1 phase)

/-- Marks segments for refresh (R349). -/
def Med.mark (ids : List Nat) (m : Med) : Med := { m with marks := m.marks ++ ids.filter fun s => !m.marks.contains s }

/-- Segments are to be rewritten for a vacancy or a lost channel (R373, R375). -/
def Med.rewrite (ids : List Nat) (m : Med) : Med := { m with due := m.due ++ ids.filter fun s => !m.due.contains s }

/-- A channel is lost (R375, R377). -/
def Drive.chanLost (c : Nat) (d : Drive) : Drive :=
  let second := d.med.chLost.isSome
  let d := d.onMed fun m =>
    { ((m.onChan c fun x => { x with state := 2 }).rewrite ((m.segs.filter fun s => s.exts.any fun x => x.lacks != some c).map (·.id))) with
      chLost := some (m.chLost.getD c), capacity := if second then m.capacity else m.capacity - 3072 * 2 ^ 30 }
  let d := (d.raise 0x020 (leBytes 1 c)).marginCheck.revokeLow
  if second then d.wantReadOnly 2 else d

/-- A channel without a position that responds is lost. -/
def Drive.emptyChan (c : Nat) (d : Drive) : Drive := if (d.med.chan c).vacant.length = 15 ∧ (d.med.chan c).state ≠ 2 then d.chanLost c else d

/-- A die position is retired: the spare takes it over, or it becomes vacant (R371-R373); a channel with no position left is lost (R375). -/
def Drive.retirePos (c p : Nat) (host : Bool) (d : Drive) : Drive :=
  let i := d.med.posDie c p
  if (d.med.die i).state = 3 ∨ (d.med.chan c).vacant.contains p ∨ p ≥ 15 then d
  else
    let d := (d.startAction 0x03 0 i host).dieEvent c p (i % 16) 0
    if (d.med.chan c).spareUsed then
      ((d.onMed fun m => ((m.onDie i fun x => { x with state := 3, pos := 15, gone := some (m.posWear c p) }).onChan c
          fun x => { x with vacant := x.vacant ++ [p] }).rewrite
        ((m.segs.filter fun s => s.exts.any fun x => x.frame / 1024 == p && x.lacks != some c).map (·.id))).dieEvent c p (i % 16) 3).marginCheck.emptyChan c
    else
      let d := d.onMed fun m => ((m.onDie i fun x => { x with state := 3, pos := 15, gone := some (m.posWear c p) }).onDie (16 * c + 15)
        fun x => { x with state := 2, pos := p }).onChan c fun x => { x with spareUsed := true }
      let d := d.onMed fun m => { m with blocks := m.blocks.map fun b => if b.1 / 4096 == 16 * c + p then (b.1, { b.2 with wear := 0, bad := false }) else b }
      (d.dieEvent c p 15 1).marginCheck

/-- A block fails to program (`kind` 0) or to erase (1) and is retired (R363, R364); more than 2 % of a die's 4,096 blocks retire its
position (R371). A value that names no codeword names no block (R337). -/
def Drive.blockFails (l : BitVec 48) (kind : Nat) (d : Drive) : Drive :=
  if !locNames l then d else
  let c := locCh l
  let i := d.med.posDie c (locPos l)
  let d := d.onMed fun m => (m.onBlock (locKey l) fun b => { b with bad := true }).onDie i fun x =>
    { x with ret := (numbered x.ret).map fun y => if y.1 == locPlane l then y.2 + 1 else y.2
             pgmF := if kind = 0 then wrap32 (x.pgmF + 1) else x.pgmF, ersF := if kind = 1 then wrap32 (x.ersF + 1) else x.ersF }
  let d := d.raise (0x100 + 4 * c + 1) (leBytes 6 l.toNat ++ leBytes 1 kind)
  if (d.med.die i).retBlk > 81 then d.retirePos c (locPos l) false else d.marginCheck

/-- The drive resets and retrains a channel itself (R376, R575). -/
def Drive.chanRetrain (c : Nat) (d : Drive) : Drive :=
  if (d.med.chan c).state = 0 then
    ((d.onMed fun m => m.onChan c fun x => { x with state := 1 }).onUpd fun u => { u with inReset := u.inReset ++ [0x10 + c] }).startAction 0x07 3
      (0x10 + c) false
  else d

/-- Die positions of a channel in service. -/
def Med.positions (c : Nat) (m : Med) : List Nat := (List.range 15).filter fun p => !(m.chan c).vacant.contains p

/-- After a retrain the dies at some positions do not respond: the third time in a row retires the position (R371); with none that responds the
channel is lost (R375). -/
def Drive.diesSilent (c : Nat) (silent : BitVec 15) (d : Drive) : Drive :=
  let ps := d.med.positions c
  let d := ps.foldl (fun d p => d.onMed fun m => m.onDie (m.posDie c p) fun x => { x with silent := if silent.getLsbD p then x.silent + 1 else 0 }) d
  if !ps.isEmpty && ps.all (silent.getLsbD ·) then d.chanLost c
  else ps.foldl (fun d p => if (d.med.die (d.med.posDie c p)).silent ≥ 3 then d.retirePos c p false else d) d

/-- A channel island's reset or retrain ends (R375, R376): `silent` are the positions whose dies do not respond after it. -/
def Drive.chanRetrained (c : Nat) (ok : Bool) (silent : BitVec 15) (d : Drive) : Drive :=
  if (d.med.chan c).state = 2 ∨ c ≥ 32 then d
  else
    let d := d.onMed fun m => m.onChan c fun x =>
      { x with state := 0, retrains := wrap32 (x.retrains + 1), fails := if ok then 0 else x.fails + 1 }
    let d := d.raise (0x100 + 4 * c + 2) (leBytes 1 (if ok then 0 else 1))
    if (d.med.chan c).fails ≥ 3 then d.chanLost c else d.diesSilent c silent

/-- The same, with the end of the live action that reset the channel, where one runs (R575). The drive tries again at once while the retrain
has failed or a die does not respond (R371, R375). (log 151 DEDUCED) -/
def Drive.chanDone (c : Nat) (ok : Bool) (silent : BitVec 15) (d : Drive) : Drive :=
  let d := match d.upd.running.find? fun a => a.code == 0x07 && a.target == 0x10 + c with
    | none => d
    | some a =>
      (d.onUpd fun u =>
        { u with inReset := u.inReset.filter (· != a.target)
                 resets := if ok then setKey u.resets a.target (wrap32 (lookupD u.resets a.target 0 + 1)) else u.resets }).closeAction a.serial ok 0
  let d := d.chanRetrained c ok silent
  if !ok || (d.med.positions c).any (silent.getLsbD ·) then d.chanRetrain c else d

/-! Reading (R344-R349). -/

/-- A read of a die reaches a step of the ladder: its counter, and the event at steps 5 and 6. -/
def Drive.reach (l : BitVec 48) (step : Nat) (d : Drive) : Drive :=
  let i := d.med.posDie (locCh l) (locPos l)
  let d := d.onMed fun m => m.onDie i fun x =>
    { x with lad := (numbered x.lad).map fun y => if y.1 + 2 == step then wrap32 (y.2 + 1) else y.2 }
  if step ≥ 5 then d.raise (0x100 + 4 * locCh l) (leBytes 6 l.toNat ++ leBytes 1 step) else d

/-- The codeword lies in a frame set aside for index pages. -/
def Med.indexFrame (l : BitVec 48) (m : Med) : Bool :=
  (m.segOf l).isNone && m.aside.any fun o => o.cell == .index && o.exts.any (·.holds l)

/-- Marks the segment of a codeword for refresh (R349); an index page is written anew at once. (log 149 DESIGN CHOICE) -/
def Drive.markSeg (l : BitVec 48) (d : Drive) : Drive :=
  if !locNames l then d
  else d.onMed fun m => if m.indexFrame l then m.asideWrite 0 16384 else m.mark ((m.segOf l).map (·.id)).toList

/-- A codeword that the drive reads for itself with steps 1 to 3 reached step 2, or step 3 too: the counters of its die (R344). -/
def Drive.ownStep (i reached : Nat) (d : Drive) : Drive :=
  d.onMed fun m => m.onDie i fun x =>
    { x with lad := (numbered x.lad).map fun y => if y.1 < reached then wrap32 (y.2 + 1) else y.2 }

/-- The members of a stripe that a rebuild reads (R346): one that fails has climbed to step 3; how far another climbed is open. -/
def Drive.memberReads (l : BitVec 48) (page : Bool) (failed : BitVec 32) (d : Drive) : Drive :=
  let x := d.med.layoutOf page l
  let cs := (parityGroup x.1 x.2 (locCh l)).filter fun c => c != locCh l && !d.med.unavailable c (locPos l)
  let far := fun (c : Nat) => if failed.getLsbD c then 2 else Config.ownRead d.free c % 3
  cs.foldl (fun e c => e.ownStep (d.med.posDie c (locPos l)) (far c)) { d with free := d.free + 1 }

/-- The drive reads whole dies for itself: how many of these reads reached steps 2 and 3 is open (R344). -/
def Drive.dieReads (dies : List Nat) (d : Drive) : Drive :=
  let f := fun (i : Nat) (x : Die) =>
    (i, { x with lad := (numbered x.lad).map fun y => if y.1 < 2 then wrap32 (y.2 + Config.ownReads d.free i y.1) else y.2 })
  let d := d.onMed fun m =>
    { m with dies := (m.dies.map fun x => if dies.contains x.1 then f x.1 x.2 else x)
        ++ (dies.filter fun i => !(m.dies.any fun x => x.1 == i)).map fun i => f i (.factory i) }
  { d with free := d.free + 1 }

/-- Codeword numbers from 2^24 on name index pages: 2^24 + i the page that a command needs as number i. (log 60 DESIGN CHOICE) -/
def pageChunk : Nat := 2 ^ 24

/-- A codeword of a read's value has been read: with the last one of a 64 KiB chunk the chunk goes to the host; a SCAN or SEARCH sends its
output after the last one of all. An index page moves nothing. A value read whole may stay in the value cache. -/
def Drive.chunkRead (c : Ctx) (n : Nat) (d : Drive) : Drive :=
  let rest := c.chunks.filter fun x => x.1 != n
  let d := d.onCtx c.sq c.ord fun x => { x with chunks := rest, ladder := x.ladder.filter fun y => y.1 != n }
  if pageChunk ≤ n then d
  else if returnsValue c.op then
    let k := n / 16
    if rest.any fun x => x.1 / 16 == k then d
    else
      let start := if c.op = 0x05 then c.e.c 0x70 4 else 0
      let a := max start (65536 * k)
      let b := min (start + c.data.length) (65536 * (k + 1))
      let d := d.output c (a - start) ((c.data.drop (a - start)).take (b - a))
      if rest.isEmpty && c.source.any fun v => v.2 == c.data.length then d.keepValue c.source else d
  else if rest.isEmpty then d.output c 0 c.data else d

/-- An index page cannot be read: its key space is rebuilt (R327, R330). -/
def Drive.pageLost (ks page : Nat) (l : BitVec 48) (d : Drive) : Drive :=
  let new := !d.idx.rebuild.contains ks
  let d := d.onIdx fun i => { i with lost := i.lost ++ [(ks, page, l.toNat)], rebuild := if new then i.rebuild ++ [ks] else i.rebuild }
  let d := if d.idx.rebuild.length = 1 && new then d.onIdx (·.readMedia d.clk.life) else d
  if new then d.raise 0x180 (leBytes 2 ks ++ [0]) else d

/-- A read ends without data (step 6). In a segment that has lost a channel and has not been rewritten since, that ends in READ-ONLY
(R377). -/
def Drive.unreadable (c : Ctx) (n : Nat) (l : BitVec 48) (d : Drive) : Drive :=
  let d := if d.med.chLost.isSome && (d.med.layoutOf (decide (pageChunk ≤ n)) l).2 != d.med.chLost then d.wantReadOnly 2 else d
  if pageChunk ≤ n then
    let e := d.onCtx c.sq c.ord fun x => { x with chunks := x.chunks.filter fun y => y.1 != n, ladder := x.ladder.filter fun y => y.1 != n }
    match (d.indexPages c)[n - pageChunk]? with
    | some p => e.pageLost p.1 p.2 l
    | none => e
  else d.settle c (.failed stUnrecoverable 9 (leBytes 6 l.toNat)) 0 none

/-- The step after a failed one: 5 at once for a member that is not available (R347). -/
def Drive.climb (c : Ctx) (n step : Nat) (l : BitVec 48) (d : Drive) : Drive :=
  let d := d.reach l step
  if step = 6 then d.unreadable c n l
  else d.onCtx c.sq c.ord fun x =>
    { x with chunks := (x.chunks.filter fun y => y.1 != n) ++ [(n, step)], ladder := (x.ladder.filter fun y => y.1 != n) ++ [(n, l)] }

/-- The command reads codeword `n` and is not yet in the ladder with it; or it is before its turn and reads an index page. What has been
read waits for the island it goes to (R17). -/
def Drive.reading (c : Ctx) (n : Nat) (d : Drive) : Bool :=
  d.islState (if pageChunk ≤ n then 6 else 7) == 0 && !c.settled && !c.discarded && c.marked.isNone && !d.csc.find.contains (c.sq, c.ord) &&
    (if pageChunk ≤ n then c.started && c.fail.isNone && !c.turned && !c.ran && decide (n - pageChunk < (d.indexPages c).length) && !(c.ladder.any fun x => x.1 == n)
     else (c.turned || c.ran) && (c.chunks.contains (n, 1) || c.chunks.contains (n, 0)))

/-- The locator's generation is not that of its block (R338): the index entry is read again from flash; a mismatch that remains ends the
command. -/
def Drive.genMismatch (c : Ctx) (n : Nat) (l : BitVec 48) (d : Drive) : Drive :=
  if c.chunks.contains (n, 0) then
    let r := (d.raise 0x02A (leBytes 6 l.toNat)).internal
    r.2.failNow c r.1
  else
    (d.onIdx fun i => { i with flashRd := i.flashRd + 1 }).onCtx c.sq c.ord fun x =>
      { x with chunks := (x.chunks.filter fun y => y.1 != n) ++ [(n, 0)] }

/-- The unit tags of a codeword of a tagged record do not match (R471). -/
def Drive.tagFails (c : Ctx) (l : BitVec 48) (d : Drive) : Drive :=
  let d := (d.onCry fun x => { x with authF := wrap32 (x.authF + 1) }).raise 0x1C1 (leBytes 2 c.e.ksId ++ leBytes 6 l.toNat)
  d.settle c (.failed stAuthFailed 9) 0 none

/-- A codeword read with hard decode (R344 step 1), after the compare of generations (R338). `weak` says that it corrected more than the
refresh line allows (R380), `tagOk` that the unit tags of a tagged record match (R471). A value that names no codeword reads nothing
(R337). -/
def Drive.codeword (q tag n : Nat) (l : BitVec 48) (ok weak tagOk : Bool) (d : Drive) : Drive :=
  match d.find? q tag fun c => d.reading c n with
  | none => d
  | some c =>
    if !locNames l || d.cry.lost then d
    else if !d.med.genOk l then d.genMismatch c n l
    else if d.med.unavailable (locCh l) (locPos l) then d.climb c n 5 l
    else if !ok then d.climb c n 2 l
    else if !tagOk && c.tagged.contains n then d.tagFails c l
    else (if weak then d.markSeg l else d).chunkRead c n

/-- The position's die failed step 4 in two blocks within an hour: it is retired (R371). -/
def Drive.step4Fails (l : BitVec 48) (d : Drive) : Drive :=
  let i := d.med.posDie (locCh l) (locPos l)
  let recent := (d.med.die i).failed4.filter fun x => decide (d.clk.life < x.2 + 3600000000000)
  let other := recent.any fun x => x.1 != locBlock l
  let d := d.onMed fun m => m.onDie i fun x => { x with failed4 := recent ++ [(locBlock l, d.clk.life)] }
  if other then d.retirePos (locCh l) (locPos l) false else d

/-! Programs of chunks and packs (R154, R392, R660, R661). -/

/-- The channel island is reset or retrains: its programs wait (R376). -/
def Med.chanWaits (l : BitVec 48) (m : Med) : Bool := (m.chan (locCh l)).state == 1

/-- A chunk's program status. A failed one is retried on another block; before the turn, three failures fail the command. -/
def Drive.chunkProgrammed (id n : Nat) (ok : Bool) (l : BitVec 48) (d : Drive) : Drive :=
  match d.kvx.staged.find? fun s => s.recId == id && decide (4096 ≤ s.len) && (s.chunks.any fun c => c.1 == n) && !d.med.chanWaits l with
  | none => d
  | some s =>
    if ok then
      let rest := s.chunks.filter fun c => c.1 != n
      let d := d.onKvx fun k =>
        { k with staged := if rest.isEmpty && s.serial.isSome then k.staged.filter fun x => x.recId != id
                           else updFirst (fun x => x.recId == id) (fun x => { x with chunks := rest }) k.staged }
      d.overCheck
    else
      let tries := lookupD s.chunks n 0 + 1
      let d := (d.onKvx fun k =>
        { k with staged := updFirst (fun x => x.recId == id) (fun x => { x with chunks := setKey x.chunks n tries }) k.staged }).blockFails l 0
      if s.serial.isNone && decide (3 ≤ tries) then
        d.failCtx s.sq s.ord { (Res.failed stWriteFault 9) with idx := some s.op }
      else d

/-- A pack's program status. -/
def Drive.packProgrammed (id : Nat) (ok : Bool) (l : BitVec 48) (d : Drive) : Drive :=
  match d.kvx.packs.find? fun p => p.id == id && !d.med.chanWaits l with
  | none => d
  | some p =>
    if ok then
      (d.onKvx fun k => { k with packs := k.packs.filter fun x => x.id != id
                                 staged := k.staged.filter fun s => !p.recs.contains s.recId }).overCheck
    else d.blockFails l 0

/-! Folding, garbage collection and refresh (R354-R366, R68). -/

def Med.seg? (id : Nat) (m : Med) : Option Segment := m.segs.find? fun s => s.id == id
def Med.onSeg (id : Nat) (f : Segment → Segment) (m : Med) : Med := { m with segs := updFirst (fun s => s.id == id) f m.segs }

/-- Versions stored in a segment, and the room they take. -/
def Store.inSeg (id : Nat) (s : Store) : List Rec := s.recs.filter fun r => r.seg == id
def Store.liveIn (id : Nat) (s : Store) : Nat := sumBy Rec.space (s.inSeg id)

/-- Fill in tenths of a percent, rounded down (R352). (log 152 DESIGN CHOICE) -/
def Drive.fill (d : Drive) : Nat := if d.med.capacity = 0 then 1000 else min 1000 (d.kvx.store.stored * 1000 / d.med.capacity)

/-- Target size of the buffer in GiB (R353). -/
def bufferTarget (fill : Nat) : Nat := if fill < 900 then 12288 - (11904 * fill + 899) / 900 else 384

/-- The record is upgraded: a STANDARD one in archive stripes (R358). -/
def Drive.isUpgraded (r : Rec) (d : Drive) : Bool :=
  ((d.kvx.store.ks? r.ks).any fun k => k.retention == .standard) && (d.med.seg? r.seg).any fun s => s.cell == .archive

/-- Upgraded bytes (R358). -/
def Drive.upgraded (d : Drive) : Nat := sumBy Rec.bytes (d.kvx.store.recs.filter fun r => d.isUpgraded r)

/-- The bound of R358 leaves room for `n` upgraded bytes: n GiB + 98,304 f + 4 (t - 384) is at most 98,304. -/
def Drive.upgradeFits (n : Nat) (d : Drive) : Bool :=
  decide (1000 * n + 2 ^ 30 * (98304 * d.fill + 4000 * (bufferTarget d.fill - 384)) ≤ 98304000 * 2 ^ 30)

/-- The record may go to archive stripes, beside `added` bytes that are being upgraded (R358). -/
def Drive.mayUpgrade (r : Rec) (added : Nat) (d : Drive) : Bool :=
  d.pwr.cur == 6 && d.upgradeFits (d.upgraded + added + (if d.isUpgraded r then 0 else r.bytes))

/-- The cell mode a record is moved to. `up` asks for archive stripes. -/
def Drive.moveCell (up : Bool) (r : Rec) (d : Drive) : Cell :=
  match d.kvx.store.ks? r.ks with
  | some k => if k.retention == .archive || up then .archive else .qlc
  | none => .qlc

/-- The source is chosen. `target` names the open segment that takes its records; another value leaves the choice to placement. An
anchored segment moves whole, unless garbage collection compacts it. Wear levelling moves any segment whole (R366). What was asked of it
stands until its new locators are journalled, so that an interruption does not lose it (R380). -/
def Drive.collect (src target : Nat) (compact : Bool) (d : Drive) : Drive :=
  d.onMed fun m => { (m.onSeg src fun s => { s with state := .collecting, into := if s.owner.isSome && !compact then none else some target }) with
    workAt := d.clk.life }

/-- Wear levelling moves a segment whole onto a worn frame (R366). -/
def Drive.collectCold (src : Nat) (d : Drive) : Drive :=
  d.onMed fun m => { (m.onSeg src fun s => { s with state := .collecting, into := none, cold := true }) with workAt := d.clk.life }

/-- The mode lets the buffer be folded now (R357, R529): in ENDURANCE and ARCHIVE when it is more than half full or has taken nothing for
60 s. Programs of staged values come ahead while there are too many of them (R398). -/
def Drive.folds (d : Drive) : Bool :=
  !d.bank.overE && (d.pwr.cur == 3 || d.pwr.cur == 4 || d.pwr.cur == 0xB || ((d.pwr.cur == 5 || d.pwr.cur == 6) &&
    (decide (d.med.actual * 2 ^ 30 < 2 * d.med.bufferBytes) || decide (d.med.bufAt + 60000000000 ≤ d.clk.life))))

/-- The segment rests: it is not being reclaimed, and no frame of it waits to be erased. -/
def Segment.rests (s : Segment) : Bool := (s.state == .sealed || s.state == .opened) && s.old.isNone

/-- Folding of a buffer segment begins (R356, R357, R529). (log 57 DEDUCED) -/
def Drive.fold (src target : Nat) (d : Drive) : Drive :=
  match d.med.seg? src with
  | some s => if s.cell == .buffer && s.rests && d.folds then d.collect src target false else d
  | none => d

/-- The segments that are to be rewritten, the least protected first (R349, R373, R375). -/
def Med.rewrites (m : Med) : List Segment :=
  let all := m.segs.filter fun s => s.rests && (m.marks.contains s.id || m.due.contains s.id)
  all.filter fun s => all.all fun t => decide (m.protection s ≤ m.protection t)

/-- The flash may be rewritten in the background: an ACTIVE mode, READ-ONLY, SCRUB (R383, R529). -/
def Drive.rewriting (d : Drive) : Bool := d.pwr.active || d.pwr.cur == 0xB || d.pwr.cur == 9

/-- A segment is rewritten: one marked for refresh or due, the least protected first (R349, R375), or one that the pass which runs finds below
the refresh line (R380); the pass stands at it then. -/
def Drive.refresh (src target : Nat) (d : Drive) : Drive :=
  match d.med.seg? src with
  | some s =>
    if !s.rests || !d.rewriting then d
    else if d.med.marks.contains src || d.med.due.contains src then
      (if d.med.rewrites.any fun t => t.id == src then d.collect src target false else d)
    else if d.med.scrub then (d.onMed fun m => { (m.mark [src]) with scrubSeg := src }).collect src target false
    else d
  | none => d

/-- A channel that the programs of a segment's copies need is being reset or retrained: they wait (R376). -/
def Med.copiesWait (m : Med) : Bool := m.chans.any fun c => c.2.state == 1

/-- Every copy of the source's live records is programmed, or a block failed and the copies are made again (R363). How far the reads of the
source climbed the ladder is open (R344). -/
def Drive.copied (src target : Nat) (ok : Bool) (l : BitVec 48) (d : Drive) : Drive :=
  match d.med.seg? src with
  | some s =>
    if s.state == .collecting && !d.med.copiesWait then
      let d := d.onMed fun m => m.onSeg src fun s => { s with into := if s.into.isSome then some target else none }
      if ok then
        (d.onMed fun m => { (m.onSeg src fun s => { s with state := .copied }) with gcWrote := m.gcWrote + d.kvx.store.liveIn src }).dieReads
          ((members s.lacks).map fun c => d.med.posDie c (s.frame / 1024))
      else d.blockFails l 0
    else d
  | none => d

/-- Places the moved records: the moves, the media, the draws. `added` counts the bytes upgraded with them. -/
def Drive.placeMoves (target : Nat) (owner : Option Nat) (d : Drive) : List Rec → Nat → Med → Nat → List (Nat × Nat × Nat) × Med × Nat
  | [], _, m, n => ([], m, n)   -- a record that finds no room is left out
  | r :: rs, added, m, n =>
    let up := ((d.med.seg? target).any fun t => t.cell == .archive) && d.mayUpgrade r added
    let cell := d.moveCell up r
    let slack := recSlack r.value.length
    let p := match (m.seg? target).filter fun t =>
        owner.isNone && t.state == .opened && t.owner.isNone && t.cell == cell && decide (t.used + r.space ≤ t.room) with
      | some t => some (target, t.used + Config.freeNat n % (slack + 1), m.onSeg target fun t => { t with used := t.used + r.space })
      | none => m.place cell owner r.key.length r.value.length n
    let rest := Drive.placeMoves target owner d rs (if up && !d.isUpgraded r then added + r.bytes else added) (p.elim m (·.2.2)) (n + 1)
    ((p.map fun x => (r.recId, x.1, x.2.1)).toList ++ rest.1, rest.2)

/-- A turn of the drive's own that journals moves (R361): it belongs to no domain and takes no charge. -/
def Drive.mapCommit (l : List (Nat × Nat × Nat)) (d : Drive) : Drive :=
  (d.onKvx fun k =>
    let t := k.turnSer + 1
    { k with
      turnSer := t, store := k.store.apply t (.move l)
      log := k.log ++ [{ serial := t, domain := 0, strict := false, conn := 0, sq := 0, ord := 0, keys := .none, effs := [.move l], vals := []
                         lone := 0, admitted := false, media := false, journaled := true, cqeDone := true }] }).indexCommit [.move l]

/-- The new locators of a source are journalled: what was asked of the segment is done, and a refresh counts (R380). -/
def Med.mapped (src : Nat) (m : Med) : Med :=
  let one := if m.marks.contains src then 1 else 0
  { (m.onSeg src fun s => { s with state := .mapped, cold := false }) with
    marks := m.marks.filter (· != src), due := m.due.filter (· != src), refLife := m.refLife + one
    refPass := m.refPass + (if m.scrub then one else 0) }

/-- New frames for all frames of a segment, each taken in turn; none when they are not to be had. -/
def Med.newFrames (cold : Bool) : List Extent → Med → Option (List Extent)
  | [], _ => some []
  | x :: xs, m =>
    match if cold then m.wornFrame else m.nextFrame with
    | none => none
    | some f =>
      let y := m.extent x.id f
      (Med.newFrames cold xs { m with aside := m.aside ++ [{ frame := f, cell := .qlc, lacks := y.lacks, swaps := y.swaps }] }).map (y :: ·)

/-- A segment moves whole: the same IDs, new frames (R68, R340). -/
def Med.moveWhole (src : Nat) (cell : Cell) (ys : List Extent) (m : Med) : Med :=
  match ys with
  | [] => m
  | y :: more =>
    m.onSeg src fun s =>
      { s with frame := y.frame, lacks := y.lacks, swaps := y.swaps, more := more, cell := cell
               old := some { frame := s.frame, cell := s.cell, lacks := s.lacks, swaps := s.swaps, more := s.more } }

/-- The map commit of a source (R359 step 2, R361, R68). The live records of an anchored segment are compacted into new segments. -/
def Drive.gcCommit (src : Nat) (d : Drive) : Drive :=
  match d.med.seg? src with
  | none => d
  | some s =>
    if s.state != .copied then d
    else
      match s.into with
      | none =>
        let cell := if s.cell == .buffer then (match s.owner.bind (d.kvx.store.ks? ·) with
          | some k => if k.retention == .archive then Cell.archive else Cell.qlc
          | none => .qlc) else s.cell
        (match d.med.newFrames s.cold s.exts with
         | none => d
         | some ys => (d.mapCommit []).onMed fun m => (m.moveWhole src cell ys).mapped src)
      | some target =>
        let live := d.kvx.store.inSeg src
        let m0 := if s.owner.isSome then (d.med.sealOpen .qlc s.owner).sealOpen .archive s.owner else d.med
        let p := d.placeMoves target s.owner live 0 m0 d.free
        if p.1.length < live.length then d
        else
          let d := (({ d with med := p.2.1, free := p.2.2 } : Drive).mapCommit p.1).dram useMetadata (2 ^ 10 * src) live.length
          let d := d.onMed (Med.mapped src)
          match s.owner with
          | some ks => ((p.1.map (·.2.1)).eraseDups).foldl (fun d t => d.raise 0x029 (leBytes 3 src ++ leBytes 3 t ++ leBytes 2 ks)) d
          | none => d

/-- R359 step 3. -/
def Drive.gcReclaim (src : Nat) (d : Drive) : Drive :=
  d.onMed fun m => m.onSeg src fun s => if s.state == .mapped then { s with state := .reclaiming } else s

/-- A read holds locators into a frame (R362). -/
def Drive.readsFrame (f : Nat) (d : Drive) : Bool := d.kvx.ctxs.any fun c => !c.settled && !c.chunks.isEmpty && c.frames.contains f

/-- The erase of a reclaimed frame ends (R359 step 4, R360, R364). None is made while a read holds a locator into the frame (R362). -/
def Drive.erased (src : Nat) (ok : Bool) (l : BitVec 48) (d : Drive) : Drive :=
  match d.med.seg? src with
  | none => d
  | some s =>
    let exts := match s.old with
      | some o => o.exts
      | none => s.exts
    if s.state != .reclaiming || exts.any (fun x => d.readsFrame x.frame) then d
    else
      let d := d.onMed fun m => match s.old with
        | some o => (m.onSeg src fun s => { s with state := .sealed, old := none }).eraseFrames exts o.cell
        | none =>
          { (m.eraseFrames exts s.cell) with
            segs := m.segs.filter fun x => x.id != src, marks := m.marks.filter (· != src), due := m.due.filter (· != src) }
      if ok then d else d.blockFails l 1

/-- A read that succeeded at step 5 writes the rebuilt data back (R349): a record of a shared segment is relocated, an anchored segment moves
whole. -/
def Drive.writeBack (step : Nat) (source : Option (Nat × Nat)) (l : BitVec 48) (d : Drive) : Drive :=
  match d.med.segOf l with
  | none => d
  | some s =>
    if step ≠ 5 || !s.rests || !d.rewriting then d
    else if s.owner.isSome then d.collect s.id noSeg false
    else
      match d.kvx.store.recs.find? fun r => r.seg == s.id && source.any fun x => x.1 == r.recId with
      | none => d
      | some r =>
        let p := d.placeMoves noSeg none [r] 0 d.med d.free
        if p.1.isEmpty then d else ({ d with med := p.2.1, free := p.2.2 } : Drive).mapCommit p.1

/-- A step of the ladder ends. `ok` tells whether a step up to 4 decoded, step 4 with entry number `tries` after the calibrated one (R345);
step 5 succeeds as R346 counts the members that `failed` names; `tagOk` that the unit tags match. -/
def Drive.ladderStep (q tag : Nat) (ok : Bool) (tries : Nat) (failed : BitVec 32) (tagOk : Bool) (d : Drive) : Drive :=
  match d.find? q tag fun c => c.alive && !c.ladder.isEmpty && d.islState 7 == 0 && !d.cry.lost with
  | none => d
  | some c =>
    match c.ladder with
    | [] => d
    | (n, l) :: _ =>
      let step := lookupD c.chunks n 2
      let i := d.med.posDie (locCh l) (locPos l)
      let d := if step = 5 then d.memberReads l (decide (pageChunk ≤ n)) failed else d
      if if step = 5 then d.med.rebuilds (decide (pageChunk ≤ n)) l failed else ok then
        let d := if step = 4 then d.onMed fun m => m.onDie i fun x => { x with entry := some ((m.entry i + tries % 8) % 16) } else d
        let d := (d.markSeg l).writeBack step c.source l
        if !tagOk && c.tagged.contains n then d.tagFails c l else d.chunkRead c n
      else (if step = 4 then d.step4Fails l else d).climb c n (step + 1) l

/-- What makes a segment a victim (R365): little live data, weighted by the age of its last write in ENDURANCE and ARCHIVE. -/
def Drive.gcScore (s : Segment) (d : Drive) : Nat :=
  let live := d.kvx.store.liveIn s.id
  if d.pwr.cur = 3 ∨ d.pwr.cur = 4 then live
  else Config.gcWeight live (d.clk.wallTime - ((d.kvx.store.inSeg s.id).map (·.wtime)).foldl max 0)

/-- The bound of R358 has fallen below the upgraded bytes. -/
def Drive.upgradeFull (d : Drive) : Bool := d.upgraded != 0 && !d.upgradeFits d.upgraded

/-- The victim of garbage collection (R365): the sealed segment with the lowest score, one with upgraded records ahead of any other while
there are too many of them (R358); an anchored one only when at most a quarter of its data space is live. (log 56 DESIGN CHOICE) -/
def Drive.victim (d : Drive) : Option Segment :=
  let can := d.med.segs.filter fun s =>
    s.cell != .buffer && s.state == .sealed && s.old.isNone && (s.owner.isNone || decide (4 * d.kvx.store.liveIn s.id ≤ s.room))
  let up := if d.upgradeFull then can.filter fun s => (d.kvx.store.inSeg s.id).any fun r => d.isUpgraded r else []
  (if up.isEmpty then can else up).foldl (fun b s => match b with
    | none => some s
    | some x => if d.gcScore s < d.gcScore x then some s else some x) none

/-- The segment that wear levelling moves (R366): of the sealed ones that whose blocks have worn least, when the spread exceeds 1,000
tenths. -/
def Drive.wearMove (d : Drive) : Option Segment :=
  let top := d.med.blocks.foldl (fun (m : Nat) x => max m x.2.wear) 0
  let least := (d.med.segs.filter fun s => s.state == .sealed && s.old.isNone && s.cell != .buffer).foldl (fun b s => match b with
    | none => some s
    | some x => if d.med.segWear s < d.med.segWear x then some s else some x) none
  least.filter fun s => decide (d.med.segWear s + 1000 < top)

/-! The scheduling epoch (R353, R354, R365). -/

/-- The buffer's actual size after an epoch. -/
def Med.resize (mode fill : Nat) (m : Med) : Med :=
  let t := bufferTarget fill
  let m := { m with target := t }
  if m.actual < t then
    let spare := m.freeFrames - (gcStart mode + 64)
    { m with actual := min t (max m.actual ((m.bufferFrames m.actual + spare) * 15 / 8)) }
  else { m with actual := max t (min m.actual ((m.bufferBytes + 2 ^ 30 - 1) / 2 ^ 30)) }

/-- The buffer segment whose folding an epoch starts: the oldest, while none is being folded (R356, R357). -/
def Drive.nextFold (d : Drive) : Option Segment :=
  let buf := d.med.segs.filter fun s => s.cell == .buffer
  if d.folds && buf.all (·.rests) then buf.find? fun s => s.used != 0 else none

/-- The work that an epoch starts: at the floor garbage collection; else folding, then what is to be rewritten, then garbage collection below
the threshold of the mode, then wear levelling (R356, R365, R366, R373). Garbage collection for room runs in ACTIVE modes alone (R529). -/
def Drive.epochWork (d : Drive) : Drive :=
  let low := decide (d.med.freeFrames < gcStart d.pwr.cur)
  let gc := if d.pwr.active && (low || d.upgradeFull) && !d.bank.overE then d.victim else none
  let due := if d.rewriting && !d.bank.overE then d.med.rewrites.find? fun s => d.med.due.contains s.id else none
  match gc with
  | some s => if decide (d.med.freeFrames < 160) then d.collect s.id noSeg true else
      match d.nextFold, due with
      | some f, _ => d.collect f.id noSeg false
      | none, some s => d.collect s.id noSeg false
      | none, none => d.collect s.id noSeg true
  | none =>
    match d.nextFold, due with
    | some f, _ => d.collect f.id noSeg false
    | none, some s => d.collect s.id noSeg false
    | none, none => if d.pwr.active then (match d.wearMove with
        | some s => d.collectCold s.id
        | none => d) else d

/-- One epoch: buffer sizes, folding, garbage collection, wear levelling, pacing, the mode and cap that were asked for. -/
def Drive.epoch (d : Drive) : Drive :=
  let d := if d.pwr.active || d.pwr.cur == 0xB then d.onMed (Med.resize d.pwr.last d.fill) else d
  let d := d.epochWork
  let d :=
    if d.pwr.active then
      let low := decide (d.med.freeFrames < gcStart d.pwr.cur)
      let runs := d.med.segs.any fun s => s.cell != .buffer && s.state != .opened && s.state != .sealed
      let floor := d.med.floorHolds && d.kvx.ctxs.any fun c => dedupOp c.op && c.started && !c.turned && !c.settled
      d.onMed fun m => { m with gcState := if floor then 2 else if runs || low then 1 else 0, atFloor := m.atFloor && decide (m.freeFrames ≤ 160) }
    else d.onMed fun m => { m with gcState := 0 }
  let d := d.onMed fun m => if m.working then { m with workAt := d.clk.life } else m
  let d := d.onMed fun m => if d.clk.life < m.hourAt + 3600000000000 then m else { m with gcWrote := 0, hostHour := 0, hourAt := d.clk.life }
  d.paceCheck.modeEpoch

/-! Scrubbing (R380-R383). -/

/-- A full pass starts; one that has not ended goes on from the segment at which it stopped (R380, R381, R529). -/
def Drive.passStart (d : Drive) : Drive := if d.pwr.active || d.pwr.cur == 0xB then d.passHere else d

/-- A full pass ends: every segment that was marked has been rewritten. Every codeword has been read; the threshold tables after it are open,
`entries` are the calibrated entries that it found, by physical die (R345, R380). -/
def Drive.passEnd (entries : List (BitVec 4)) (d : Drive) : Drive :=
  if (d.scrubState = 1 ∨ d.scrubState = 2) ∧ d.med.marks.isEmpty then
    let d := d.dieReads ((List.range 512).filter fun i => (d.med.die i).state != 3)
    let m := d.med
    let d := { d with
      med := { m with
        scrub := false, scrubSeg := 0, refPass := 0, defer := 0, lastPass := d.clk.installed, passWall := d.clk.wallTime
        passes := wrap32 (m.passes + 1), refLast := wrap32 m.refPass
        dies := (List.range 512).map fun i =>
          let x := m.die i
          (i, if x.state = 3 then x else { x with table := x.table + 1, entry := some (entries.getD i 0).toNat, calAt := d.clk.installed }) } }
    (d.raise 0x028 (leBytes 4 m.refPass)).scrubPark
  else d

/-! Rebuilds (R328, R330, R372). -/

/-- The rebuild of a key space ends, once the media has been read (R328): a full rebuild has made all of its pages, another one the lost ones. -/
def Drive.rebuilt (ks : Nat) (d : Drive) : Drive :=
  if d.idx.rebuild.head? = some ks && decide (d.idx.rbEnd ≤ d.clk.life) then
    let full := d.idx.full.contains ks
    let d := d.onIdx (·.unbuild ks d.clk.life)
    let d := if full then d.index (·.relay d.kvx.store ks d.cacheCap) else d
    d.raise 0x181 (leBytes 2 ks ++ leBytes 1 (bitAt 0 full))
  else d

/-- The spare holds the position's data. -/
def Drive.spareReady (c : Nat) (d : Drive) : Drive :=
  let i := 16 * c + 15
  if (d.med.die i).state = 2 then
    let p := (d.med.die i).pos
    let d := (d.onMed fun m => m.onDie i fun x => { x with state := 0 }).dieEvent c p 15 2
    match d.upd.running.find? fun a => a.code == 0x03 && a.target / 16 == c with
    | some a => d.closeAction a.serial true 0
    | none => d
  else d

/-! Rows. -/

def execCodewordRead (sq tag cw : Nat) (loc : BitVec 48) (ok weak tagOk : Bool) (s : State) : Host.Outcome State Fault Refusal :=
  .next { s with d := s.d.codeword sq tag cw loc ok weak tagOk }

def execLadderStepComplete (sq tag : Nat) (ok : Bool) (r : StepEnd) (s : State) : Host.Outcome State Fault Refusal :=
  .next { s with d := s.d.ladderStep sq tag ok r.tries r.failed r.tagOk }

def execChunkProgramComplete (recId chunk : Nat) (ok : Bool) (loc : BitVec 48) (s : State) : Host.Outcome State Fault Refusal :=
  .next { s with d := s.d.chunkProgrammed recId chunk ok loc }

/-- The coalescing window in ns: that of the ACTIVE mode, in other modes of the last one (R26). -/
def packWindow (mode : Nat) : Nat := if mode = 3 then 50000 else if mode = 4 then 10000 else 500000

/-- R26, R660: the window of the open pack, counted from its first value, has passed. -/
def execPackWindowExpiry (s : State) : Host.Outcome State Fault Refusal :=
  let past := match s.d.kvx.pack with
    | some p => decide (p.since + packWindow s.d.pwr.last ≤ s.d.clk.life)
    | none => false
  .next { s with d := if past then s.d.onKvx (Kvx.closePack s.d.clk.life) else s.d }

def execPackProgramComplete (pack : Nat) (ok : Bool) (loc : BitVec 48) (s : State) : Host.Outcome State Fault Refusal :=
  .next { s with d := s.d.packProgrammed pack ok loc }

def execRebuildEnd (ks : Nat) (s : State) : Host.Outcome State Fault Refusal := .next { s with d := s.d.rebuilt ks }

def execSegmentRefresh (seg target : Nat) (s : State) : Host.Outcome State Fault Refusal := .next { s with d := s.d.refresh seg target }

def execSchedulingEpoch (s : State) : Host.Outcome State Fault Refusal := .next { s with d := s.d.epoch }

def execFold (seg target : Nat) (s : State) : Host.Outcome State Fault Refusal := .next { s with d := s.d.fold seg target }

def execGcCopyProgrammed (src target : Nat) (ok : Bool) (loc : BitVec 48) (s : State) : Host.Outcome State Fault Refusal :=
  .next { s with d := s.d.copied src target ok loc }

def execGcMapCommit (src : Nat) (s : State) : Host.Outcome State Fault Refusal := .next { s with d := s.d.gcCommit src }

def execGcReclaimRecord (src : Nat) (s : State) : Host.Outcome State Fault Refusal := .next { s with d := s.d.gcReclaim src }

def execBlockEraseComplete (src : Nat) (ok : Bool) (loc : BitVec 48) (s : State) : Host.Outcome State Fault Refusal :=
  .next { s with d := s.d.erased src ok loc }

def execSpareRebuildEnd (channel : Nat) (s : State) : Host.Outcome State Fault Refusal := .next { s with d := s.d.spareReady channel }

def execChannelRetrainComplete (channel : Nat) (result : Retrain) (s : State) : Host.Outcome State Fault Refusal :=
  .next { s with d := s.d.chanDone channel result.ok result.silent }

/-- R381: the interval since the last pass has elapsed. -/
def execScrubPassStart (s : State) : Host.Outcome State Fault Refusal :=
  .next { s with d := if s.d.scrubDue s.d.scrubDays then s.d.passStart else s.d }

def execScrubPassEnd (entries : List (BitVec 4)) (s : State) : Host.Outcome State Fault Refusal := .next (({ s with d := s.d.passEnd entries } : State).storeOnPark s.d.pwr.cur)

/-- R382: 24 hours have passed without 12 V since it was asked for, or since the last deferral. -/
def execScrubDeferral (s : State) : Host.Outcome State Fault Refusal :=
  let wait := (s.d.pwr.cur == 8 || s.d.pwr.cur == 0) && bit s.d.pwr.why 0 && (s.d.med.askAt.any fun t => decide (t + 86400 ≤ s.d.clk.installed))
  let n := min 0xFFFF (s.d.med.defer + 1)
  .next { s with d :=
    if wait then
      (s.d.onMed fun m => { m with defer := n, deferLife := wrap32 (m.deferLife + 1), askAt := some s.d.clk.installed }).raise 0x027 (leBytes 4 n)
    else s.d }

end Sys2Proof.Machine
end

