-- ==== Sys2Proof/Machine/Net.lean ====
section
/-! DEFINITION. Ethernet ports and the jack: links, received frames and their filters, flow control, cut-through, wake frames (11). -/

namespace Sys2Proof.Machine

/-! Links (R418-R422). -/

/-- The first event source of a port. (log 55 DEDUCED) -/
def portSrc : Port → Nat
  | .a => 0x040
  | .b => 0x060

/-- The modes that a link started with this configuration can come up in (R418, R419). -/
def LinkSet.allows (mode : Nat) (x : LinkSet) : Bool :=
  decide (1 ≤ mode) && decide (mode ≤ 5) && (if x.anEn then bit x.adv (mode - 1) else mode == x.mode)

/-- Whether FEC is in use; `asked`: the partner requests it. Only 25 Gb/s can do without (R418). -/
def LinkSet.fec (mode : Nat) (asked : Bool) (x : LinkSet) : Bool := mode != 5 || x.fec25 || asked

/-- A link comes up after negotiation and training. -/
def Drive.linkUp (p : Port) (mode : Nat) (fec : Bool) (d : Drive) : Drive :=
  let l := (d.port p).link
  if l.up || !l.run.allows mode || d.islState (if onB p then 3 else 2) != 0 then d
  else
    let d := d.onPort p fun x => { x with link := { x.link with up := true, train := false, res := mode, fecOn := l.run.fec mode fec } }
    let d := (d.raise (portSrc p) (leBytes 1 1 ++ leBytes 1 mode)).announce p
    -- R446: connections that have migrated here send from their oldest unacknowledged PSN
    (d.xpt.conns.filter fun c => portOf c.path.portB == p && c.stalled == 1).foldl
      (fun d c => (d.onConn c.idx fun x => { x with stalled := 0 }).resend c.idx) d

/-- A link is lost: the connections of the port that are armed migrate (R420, R444). (log 54 DEDUCED) -/
def Drive.linkLost (p : Port) (d : Drive) : Drive :=
  let x := d.port p
  if x.link.up then
    let mode := x.link.res
    let d := d.onPort p fun x =>
      { x with link := { x.link with up := false, train := true, downs := wrap32 (x.link.downs + 1) }, flow := { x.flow with sent := false } }
    let d := (d.unhold p).raise (portSrc p) (leBytes 1 0 ++ leBytes 1 mode)
    (d.xpt.conns.filter fun c => portOf c.path.portB == p && (d.xpt.net c.idx).alt == .armed).foldl (fun d c => d.migrate c.idx) d
  else d

/-- `NETx_LINKCMD.RESTART`: what `NETx_LINKCFG` holds takes effect (R452). -/
def Drive.linkRestart (p : Port) (d : Drive) : Drive :=
  (d.linkLost p).onPort p fun x =>
    { x with link := { x.link with train := true, run := { anEn := x.link.anEn, adv := x.link.adv, fec25 := x.link.fec25, mode := x.link.mode } } }

/-! Filters (R430-R433). -/

/-- The entry as at reset. -/
def Filter.default (p : Port) (i : Nat) : Filter :=
  let mac := macOf p
  match i with
  | 0 => { dmac := mac, dmode := 1, etype := 0x0800, etypeEn := true, udp := 4791, udpEn := true, cls := 1, valid := true }
  | 1 => { dmac := mac, dmode := 1, etype := 0x86DD, etypeEn := true, udp := 4791, udpEn := true, cls := 1, valid := true }
  | 2 => { etype := 0x0806, etypeEn := true, cls := 0x20, valid := true }
  | 3 => { etype := 0x86DD, etypeEn := true, cls := 0x20, valid := true }
  | 4 => { etype := 0x0800, etypeEn := true, cls := 0x20, valid := true }
  | 5 => { etype := 0x88B5, etypeEn := true, cls := 0x30, valid := true }
  | _ => {}

def Drive.filter (p : Port) (i : Nat) (d : Drive) : Filter := lookupD (d.port p).filters i (.default p i)

/-- Every enabled field of the entry matches the frame. -/
def Filter.hit (x : Filter) (f : Bytes) : Bool :=
  x.valid && (if x.dmode = 1 then be f 0 6 == x.dmac else if x.dmode = 2 then bit (be f 0 6) 40 else true)
    && (!x.vidEn || (isTagged f && frameVid f == x.vid)) && (!x.untag || !isTagged f) && (!x.pcpEn || (isTagged f && framePcp f == x.pcp))
    && (!x.etypeEn || etherType f == x.etype) && (!x.dscpEn || frameDscp f == some x.dscp) && (!x.udpEn || udpPort f == some x.udp)

/-- The entry that decides. -/
def Drive.steer (p : Port) (f : Bytes) (d : Drive) : Option Nat := (List.range 128).find? fun i => (d.filter p i).hit f

/-! Flow control (R434-R436). -/

/-- How long quanta hold a transmitter at the port's rate, in ns: 512 bit times each (R435). -/
def PortSt.pauseNs (quanta : Nat) (p : PortSt) : Nat := 5120 * quanta / p.lineRate

/-- A pause frame of the drive, with its quanta. Flow control does not hold it. -/
def Drive.sendPause (p : Port) (quanta : Nat) (d : Drive) : Drive :=
  let d := d.onPort p fun y => { y with flow := { y.flow with sentAt := d.clk.life } }
  let x := (d.port p).flow
  if x.fc = 1 then
    (d.emit p (ethFrame 0x0180C2000001 (macOf p) 0x8808 none (beBytes 2 1 ++ beBytes 2 quanta))).stat p 0x35 1
  else if x.fc = 2 then
    let times := (List.range 8).flatMap fun i => beBytes 2 (if i = x.prio then quanta else 0)
    (d.emit p (ethFrame 0x0180C2000001 (macOf p) 0x8808 none (beBytes 2 0x0101 ++ beBytes 2 (2 ^ x.prio) ++ times))).stat p (0x36 + x.prio) 1
  else d

/-- The receive buffering of a port in bytes (R434). -/
def PortSt.fill (p : PortSt) : Nat := sumBy (fun (x : Nat × Bytes × Bool) => x.2.1.length) p.rxq

/-- Receive buffering rose above the high watermark, or fell below the low one. -/
def Drive.watermark (p : Port) (d : Drive) : Drive :=
  let x := (d.port p).flow
  let n := (d.port p).fill
  if !x.sent && x.fc != 0 && decide (x.high * 1024 < n) then
    (d.onPort p fun y => { y with flow := { y.flow with sent := true } }).sendPause p x.quanta
  else if x.sent && decide (n < x.low * 1024) then
    (d.onPort p fun y => { y with flow := { y.flow with sent := false } }).sendPause p 0
  else d

/-- A flow-control frame that holds the transmitter for `q` quanta from life clock `now`; 0 lets it go (R435). -/
def Flow.heldFor (q now : Nat) (x : Flow) : Flow :=
  if q = 0 then { x with held := none }
  else { x with held := some q, heldAt := now, heldFrom := if x.held.isSome then x.heldFrom else now }

def Drive.hold (p : Port) (q : Nat) (d : Drive) : Drive :=
  if q = 0 then d.unhold p else d.onPort p fun x => { x with flow := x.flow.heldFor q d.clk.life }

/-- A flow-control frame of the kind selected holds the transmitter. -/
def Drive.takePause (p : Port) (f : FlowFrame) (d : Drive) : Drive :=
  let x := (d.port p).flow
  match f with
  | .pause q => let d := d.stat p 0x06 1; if x.fc = 1 ∧ ¬ x.storm then d.hold p q else d
  | .pfc v q =>
    let d := (List.range 8).foldl (fun d i => if v.getLsbD i then d.stat p (0x07 + i) 1 else d) d
    if x.fc = 2 ∧ ¬ x.storm ∧ v.getLsbD x.prio then d.hold p q else d

/-- The flow-control frame that bytes hold. -/
def flowOf (prio : Nat) (f : Bytes) : Option FlowFrame :=
  if etherType f = 0x8808 then
    let n := network f
    if be n 0 2 = 1 then some (.pause (be n 2 2))
    else if be n 0 2 = 0x0101 then some (.pfc (BitVec.ofNat 8 (be n 2 2)) (be n (4 + 2 * prio) 2)) else none
  else none

/-! Management traffic (R423). -/

/-- Answers an ARP request for the port's own address and learns its sender. -/
def Drive.arpAsked (p : Port) (ip mac target : Nat) (d : Drive) : Drive :=
  let d := (d.onPort p (PortSt.learn (mapped ip) mac)).armWaiting
  let x := d.port p
  if x.ip4 ≠ 0 ∧ target = x.ip4 then d.sendMgmt p mac 0x0806 (arpBody 2 (macOf p) x.ip4 mac ip) else d

/-- Answers a Neighbor Solicitation. -/
def Drive.nsAsked (p : Port) (ip mac target : Nat) (d : Drive) : Drive :=
  let d := if ip = 0 then d else (d.onPort p (PortSt.learn ip mac)).armWaiting
  let x := d.port p
  if x.ip6 ≠ 0 ∧ target = x.ip6 then (if ip = 0 then d.advertise p allNodesMac allNodes 1 else d.advertise p mac ip 3) else d

/-- Answers an echo request from `ip`, at most 1,000 a second; `m` is the ICMP message after its checksum. -/
def Drive.echoAsked (p : Port) (ip mac : Nat) (m : Bytes) (d : Drive) : Drive :=
  let x := d.port p
  let sec := d.clk.life / 1000000000
  let n := if x.echo.1 = sec then x.echo.2 else 0
  let v4 := ip / 2 ^ 32 == 0xFFFF
  if n ≥ 1000 ∨ (v4 ∧ x.ip4 = 0) ∨ (¬ v4 ∧ x.ip6 = 0) then d
  else
    let d := d.onPort p fun x => { x with echo := (sec, n + 1) }
    if v4 then d.sendMgmt p mac 0x0800 (icmp4 x.ip4 (ip % 2 ^ 32) ([0, 0, 0, 0] ++ m))
    else d.sendMgmt p mac 0x86DD (icmp6 x.ip6 ip ([129, 0, 0, 0] ++ m))

/-- What the management island does with a frame of a management class. -/
def Drive.mgmtFrame (p : Port) (f : Bytes) (d : Drive) : Drive :=
  let n := network f
  let src := be f 6 6
  if etherType f = 0x0806 then
    if be n 6 2 = 1 then d.arpAsked p (be n 14 4) src (be n 24 4)
    else (d.onPort p (PortSt.learn (mapped (be n 14 4)) (be n 8 6))).armWaiting
  else if !ipHeaderOk f && !(isV6 f && byteAt n 6 == 58) then d
  else if isV4 f && byteAt n 9 == 1 then
    if byteAt n 20 == 8 && (d.port p).owns (frameDst f) then
      d.echoAsked p (frameSrc f) src ((n.drop 24).take (be n 2 2 - 24))
    else d
  else if isV6 f && byteAt n 6 == 58 then
    let len := be n 4 2
    if byteAt n 40 = 135 then d.nsAsked p (frameSrc f) src (be n 48 16)
    else if byteAt n 40 = 136 then (d.onPort p (PortSt.learn (be n 48 16) src)).armWaiting
    else if byteAt n 40 == 128 && (d.port p).owns (frameDst f) then d.echoAsked p (frameSrc f) src ((n.drop 44).take (len - 4))
    else d
  else d

/-! Received frames (R425-R431, R438). -/

/-- A connection on the port was made with this local address, which it keeps until it ends (R422). -/
def Drive.keepsAddress (p : Port) (ip : Nat) (d : Drive) : Bool :=
  d.xpt.conns.any fun c => c.state != .free && portOf c.path.portB == p && c.lip == ip

/-- A BTH opcode of RC service, but for the reserved ones, or of a CNP: of these the drive accepts some and answers others with a NAK (R438,
R439). -/
def rcOpcode (op : Nat) : Bool := decide (op ≤ 0x14) || op == 0x16 || op == 0x17 || op == 0x81

/-- A RoCE packet at the transport island: dropped and counted, or accepted, which teaches the neighbour table. What an accepted packet
does is the business of the commands for CM, doorbells, HELLO and acknowledgements. -/
def Drive.roceFrame (p : Port) (f : Bytes) (icrcOk : Bool) (d : Drive) : Drive :=
  if !ipHeaderOk f then d.stat p 0x16 1
  else if udpPort f ≠ some 4791 then d
  else if !(d.port p).owns (frameDst f) && !d.keepsAddress p (frameDst f) then d
  else if !icrcOk then d.stat p 0x17 1
  else
    let bth := (network f).drop ((udpAt f).getD 0 + 8)
    if be bth 2 2 ≠ 0xFFFF ∧ be bth 2 2 ≠ 0x7FFF then d.stat p 0x18 1
    else if !rcOpcode (byteAt bth 0) then d
    else (d.onPort p (PortSt.learn (frameSrc f) (be f 6 6))).armWaiting

/-- The class whose turn it is: the next one after the class served last that has a packet (R431). -/
def PortSt.nextClass (p : PortSt) : Option Nat :=
  ((List.range 32).map fun i => (p.rxTurn + 1 + i) % 32).find? fun c => p.rxq.any fun x => x.1 == c

/-- One packet of the next class goes to the transport island (R431). -/
def Drive.serveOne (p : Port) (d : Drive) : Drive :=
  let x := d.port p
  match x.nextClass with
  | none => d
  | some c =>
    match x.rxq.find? fun y => y.1 == c with
    | none => d
    | some y => (d.onPort p fun z => { z with rxq := z.rxq.erase y, rxTurn := c }).roceFrame p y.2.1 y.2.2

/-- Packets are served until no more than `n` bytes are left in the receive buffers. -/
def Drive.serveTo (p : Port) (n : Nat) : Nat → Drive → Drive
  | 0, d => d
  | k + 1, d => if (d.port p).fill ≤ n then d else Drive.serveTo p n k (d.serveOne p)

/-- Serves the queues of a port until `n` bytes are left; the low watermark may be passed (R431, R434). -/
def Drive.serve (p : Port) (n : Nat) (d : Drive) : Drive := (Drive.serveTo p n (d.port p).rxq.length d).watermark p

/-- A frame that passed R425 is steered to its class: a RoCE frame into the receive queue of its class, a management frame to the management
island at once. -/
def Drive.steered (p : Port) (f : Bytes) (icrcOk : Bool) (d : Drive) : Drive :=
  if isFragment f then d.stat p 0x15 1
  else
    let e := d.steer p f
    let cls := match e with
      | some i => (d.filter p i).cls
      | none => (d.port p).rxDef
    let d := match e with
      | some i => d.onPort p fun x => { x with hits := setKey x.hits i (wrap32 (lookupD x.hits i 0 + 1)) }
      | none => d
    let d := d.stat p (0x80 + cls) 1
    if cls = 0 ∨ cls = 0x3F then d.stat p 0x14 1
    else if cls = 0x30 then d.stat p 0x1B 1
    else if cls ≤ 0x2F then
      if 4 * 2 ^ 20 < (d.port p).fill + f.length then (d.stat p 0x13 1).raise (portSrc p + 5) []
      else if cls ≤ 0x1F then (d.onPort p fun x => { x with rxq := x.rxq ++ [(cls, f, icrcOk)] }).watermark p
      else d.mgmtFrame p f
    else d

/-- The codewords of the FEC corrected and not corrected since the last frame (R451): open values. (log 135 DESIGN CHOICE) -/
def Drive.fecCounts (p : Port) (d : Drive) : Drive :=
  if (d.port p).link.fecOn then
    let w := Config.fecWords (portSrc p) (lookupD (d.port p).stats 0 0)
    (d.stat p 0x19 w.1).stat p 0x1A w.2
  else d

/-- A received frame, its FCS included (R425). (log 51 DEDUCED) -/
def Drive.frame (p : Port) (f : Bytes) (fcsOk icrcOk : Bool) (d : Drive) : Drive :=
  let l := f.length
  let max := (d.port p).maxFrm
  if !(d.port p).link.up then d
  else
    let d := (d.fecCounts p).stat p 0x00 l
    if max + 2048 < l then d.stat p 0x11 1
    else if max < l then d.stat p 0x10 1
    else if l ≤ 63 then d.stat p 0x0F 1
    else
      let d := d.stat p (0x20 + sizeBucket l) 1
      if !fcsOk then d.stat p 0x12 1
      else
        let d := (d.stat p 0x01 1).stat p (0x02 + castOf (be f 0 6)) 1
        let d := if isTagged f then d.stat p 0x05 1 else d
        match flowOf (d.port p).flow.prio f with
        | some x => d.takePause p x
        | none => d.steered p f icrcOk

/-! The jack (R447-R450). -/

def Jack.armed (j : Jack) : Bool := j.arm && j.code != 0

/-- Time that also runs in PARKED, in ns. -/
def Clocks.rtc (c : Clocks) : Nat := 1000000000 * c.installed + c.instNs

/-- A frame at the jack in PARKED. -/
def Drive.wakeFrame (f : Bytes) (fcsOk : Bool) (d : Drive) : Drive :=
  let n := network f
  let dst := be f 0 6
  let mac := be f 6 6
  let shape := fcsOk && decide (64 ≤ f.length) && decide (f.length ≤ 128) && (dst == Config.macA || dst == broadcast) && etherType f == 0x88B5
    && byteAt n 0 == 0x10 && byteAt n 1 == 1 && le n 2 2 == 0 && le n 4 8 == Config.identity
  let good := le n 12 8 == d.jack.code
  let now := d.clk.rtc
  if d.pwr.cur ≠ 8 ∨ ¬ d.jack.armed ∨ ¬ d.jack.link then d
  else
    -- the identity is a constant that no proof looks into, so the choice stands inside the fields
    let run := (d.jack.badRun.filter fun t => decide (now < t + 1000000000)) ++ [now]
    let bad := shape && !good && !d.jack.lock
    let ok := shape && good && !d.jack.lock
    let locks := bad && decide (16 ≤ run.length)
    let d := d.onJack fun j =>
      { j with bad := if bad then wrap32 (j.bad + 1) else j.bad, ok := if ok then wrap32 (j.ok + 1) else j.ok
               badRun := if bad then run else j.badRun, lock := j.lock || locks }
    let d := if locks then d.raise 0x046 (leBytes 6 mac) else d
    if ok then d.wakeFrom 2 1 mac else d

/-! Cut-through (R437). -/

/-- The frame that a port is sending ends with its FCS inverted: what had gone out of it, at least its first 512 x s bytes, is followed by
the inverse of the FCS of that. -/
def Drive.cutFrame (p : Port) (d : Drive) : Drive :=
  match d.xpt.tx.find? fun x => portOf x.1 == p with
  | none => d
  | some x =>
    let e := d.onXpt fun y => { y with tx := y.tx.erase x }
    match d.frameOf x.1 x.2.1 x.2.2 with
    | none => e
    | some f =>
      if f.length ≤ 512 * ((d.port p).flow.ctCur + 1) then d else
      let b := f.take (max (512 * ((d.port p).flow.ctCur + 1)) (Config.cutAt d.clk.life))
      e.emit p (b ++ leBytes 4 (~~~crc32 b).toNat)

/-- The transmit buffer ran dry inside a frame: the frame ends so that the receiver discards it, and the step rises. -/
def Drive.underrun (p : Port) (d : Drive) : Drive :=
  if (d.port p).flow.ctEn then
    let d := d.cutFrame p
    let n := min 7 ((d.port p).flow.ctCur + 1)
    ((d.stat p 0x3E 1).onPort p fun x => { x with flow := { x.flow with ctCur := n, stepAt := d.clk.life } }).raise (portSrc p + 4) (leBytes 1 (n + 1))
  else d

/-! Register effects. -/

/-- `NETx_MAXFRM` takes a value (R426). -/
def Drive.setMaxFrm (p : Port) (n : Nat) (d : Drive) : Drive :=
  let v := min 9216 (max 1518 n)
  let need := d.xpt.conns.foldl (fun (m : Nat) c => if portOf c.path.portB == p && (c.state != .free || c.pending) then max m (mtuBytes c.path.pmtu + 102) else m) 0
  d.onPort p fun x => if v < need then { x with link := { x.link with cfgErr := true } } else { x with maxFrm := v }

/-! Rows. -/

def execFrameReceive (port : Port) (frame : Bytes) (fcsOk icrcOk : Bool) (s : State) : Host.Outcome State Fault Refusal :=
  .next { s with d := s.d.frame port frame fcsOk icrcOk }

def execArpRequest (port : Port) (ip : BitVec 32) (mac : BitVec 48) (target : BitVec 32) (s : State) : Host.Outcome State Fault Refusal :=
  .next { s with d := s.d.arpAsked port ip.toNat mac.toNat target.toNat }

def execNeighborSolicitation (port : Port) (ip : BitVec 128) (mac : BitVec 48) (target : BitVec 128) (s : State) :
    Host.Outcome State Fault Refusal := .next { s with d := s.d.nsAsked port ip.toNat mac.toNat target.toNat }

def execIcmpEcho (port : Port) (ip : BitVec 128) (mac : BitVec 48) (payload : Bytes) (s : State) : Host.Outcome State Fault Refusal :=
  .next { s with d := s.d.echoAsked port ip.toNat mac.toNat payload }

/-- R424: two more attempts, 1 s apart. -/
def execAddressResolutionRetry (port : Port) (ip : BitVec 128) (s : State) : Host.Outcome State Fault Refusal :=
  .next { s with d :=
    match (s.d.port port).neighs.find? fun n => n.ip == ip.toNat && n.mac.isNone with
    | none => s.d
    | some n =>
      if s.d.clk.life < n.asked + 1000000000 then s.d
      else if n.tries = 0 then
        (s.d.onPort port fun x => { x with neighs := x.neighs.filter fun y => y.ip != ip.toNat }).resolveFails port ip.toNat
      else
        (s.d.onPort port fun x =>
          { x with neighs := updFirst (fun y => y.ip == ip.toNat) (fun y => { y with tries := y.tries - 1, asked := s.d.clk.life }) x.neighs }).solicit port ip.toNat }

def execLinkUp (port : Port) (mode : Nat) (fec : Bool) (s : State) : Host.Outcome State Fault Refusal :=
  .next { s with d := s.d.linkUp port mode fec }

def execLinkDown (port : Port) (s : State) : Host.Outcome State Fault Refusal := .next { s with d := s.d.linkLost port }

/-- R435. -/
def execPauseReceive (port : Port) (f : FlowFrame) (s : State) : Host.Outcome State Fault Refusal :=
  .next { s with d := s.d.takePause port f }

/-- R435: the quanta of the last flow-control frame have run out. -/
def execPauseExpiry (port : Port) (s : State) : Host.Outcome State Fault Refusal :=
  let x := s.d.port port
  let out : Bool := match x.flow.held with
    | some q => decide (x.flow.heldAt + x.pauseNs q ≤ s.d.clk.life)
    | none => false
  .next { s with d := if out then s.d.unhold port else s.d }

/-- R434: half of the pause time has passed. -/
def execPauseRefreshTimer (port : Port) (s : State) : Host.Outcome State Fault Refusal :=
  let x := (s.d.port port).flow
  let again := x.sent && decide (x.low * 1024 < (s.d.port port).fill) && decide (x.sentAt + (s.d.port port).pauseNs x.quanta / 2 ≤ s.d.clk.life)
  .next { s with d := if again then s.d.sendPause port x.quanta else s.d }

/-- R434: receive buffering falls to `fill` KiB. -/
def execPauseRelease (port : Port) (fill : Nat) (s : State) : Host.Outcome State Fault Refusal :=
  .next { s with d := s.d.serve port (1024 * fill) }

/-- R436. -/
def execNetPausestorm (port : Port) (s : State) : Host.Outcome State Fault Refusal :=
  .next { s with d :=
    if (s.d.port port).flow.held.isSome && decide ((s.d.port port).flow.heldFrom + 100000000 ≤ s.d.clk.life) then
      ((s.d.unhold port).onPort port fun x => { x with flow := { x.flow with storm := true, stormAt := s.d.clk.life } }).raise (portSrc port + 2) []
    else s.d }

/-- R436: flow-control frames are ignored for 100 ms. -/
def execPausestormEnd (port : Port) (s : State) : Host.Outcome State Fault Refusal :=
  .next { s with d :=
    if s.d.clk.life < (s.d.port port).flow.stormAt + 100000000 then s.d
    else s.d.onPort port fun x => { x with flow := { x.flow with storm := false } } }

def execTxUnderrun (port : Port) (s : State) : Host.Outcome State Fault Refusal := .next { s with d := s.d.underrun port }

/-- R437: 100 ms without an underrun. -/
def execCutThroughDecay (port : Port) (s : State) : Host.Outcome State Fault Refusal :=
  .next { s with d :=
    if s.d.clk.life < (s.d.port port).flow.stepAt + 100000000 then s.d
    else s.d.onPort port fun x =>
      { x with flow := { x.flow with ctCur := if x.flow.ctMin < x.flow.ctCur then x.flow.ctCur - 1 else x.flow.ctCur, stepAt := s.d.clk.life } } }

def execWakeFrame (frame : Bytes) (fcsOk : Bool) (s : State) : Host.Outcome State Fault Refusal :=
  .next { s with d := s.d.wakeFrame frame fcsOk }

/-- R450: wake frames are ignored for one second after the last of the 16. -/
def execJackLockEnd (s : State) : Host.Outcome State Fault Refusal :=
  .next { s with d :=
    if s.d.jack.badRun.all fun t => decide (t + 1000000000 ≤ s.d.clk.rtc) then s.d.onJack fun j => { j with lock := false, badRun := [] }
    else s.d }

/-- R448: the jack tries its link on lane A0, at its entry to PARKED and every 10 s until it comes up. -/
def execJackLinkRetry (up : Bool) (s : State) : Host.Outcome State Fault Refusal :=
  .next { s with d := if s.d.pwr.cur = 8 ∧ s.d.jack.armed then s.d.onJack fun j => { j with link := up } else s.d }

end Sys2Proof.Machine
end

