-- ==== Sys2Proof/Machine/Update.lean ====
section
/-! DEFINITION. Firmware update, live actions, self-tests, sanitize and their log pages (16). -/

namespace Sys2Proof.Machine

/-! The update stages and the firmware commands (R563-R573). -/

/-- The refusal of a firmware command (R137, R564). -/
def firmwareConflict (detail : Nat) : Res := .conflict 10 8 detail

/-- The sector of a download of `len` bytes that fails to compare after three erases, if one does (R565). -/
def badSector (free len : Nat) : Option Nat := (Config.sectorFails free).filter fun k => decide (4096 * k < len)

/-- The stage leaves VERIFIED. -/
def Upd.unverify (u : Upd) : Upd := if u.stage = 1 then { u with stage := 0, fresh := true } else u

/-- The turn of FWDOWNLOAD (R565). Whether one of its sectors never compares equal, which one and what it then holds is open; the command
then ends WRITE_FAULT. (log 65 DESIGN CHOICE) -/
def State.turnDownload (c : Ctx) (s : State) : State :=
  if s.d.upd.stage ≥ 2 then { s with d := s.d.refuse c (firmwareConflict 3) }
  else
    let d := s.d.onUpd Upd.unverify
    let nv := s.nv.download (c.e.c 0x70 4) (c.value 0) d.upd.fresh
    let r := d.draw 4096
    let d := r.2.onUpd fun u => { u with fresh := false }
    match badSector s.d.free (c.value 0).length with
    | some k => { s with nv := nv.write (slotBase s.nv.inactive + c.e.c 0x70 4 + 4096 * k) r.1, d := d.refuse c (.failed stWriteFault 9) }
    | none => { s with nv := nv, d := d.refuse c {} }

/-- The turn of FWVERIFY (R566). -/
def State.turnVerify (c : Ctx) (s : State) : State :=
  if s.d.noCore false true then
    let r := s.d.internal
    { s with d := r.2.refuse c r.1 }
  else
    let slot := s.nv.inactive
    let check := s.nv.verify slot
    if check = 0 then
      { s with d := (s.d.onUpd fun u => { u with stage := if u.stage = 0 then 1 else u.stage }).refuse c { b := leBytes 8 (s.nv.slotRev slot) } }
    else { s with d := (s.d.onUpd Upd.unverify).refuse c (.failed stAuthFailed 9 (leBytes 1 (verifyReason check))) }

/-- The turn of FWACTIVATE (R567, R568 step 1). A live one settles when it ends, as its status is open until then (R222, R570).
(log 147 DEDUCED) -/
def State.turnActivate (c : Ctx) (s : State) : State :=
  let stage := s.d.upd.stage
  if stage = 0 then { s with d := s.d.refuse c (firmwareConflict 1) }
  else if stage ≠ 1 then { s with d := s.d.refuse c (firmwareConflict 3) }
  else if bit (c.e.c 0x70 1) 0 then
    let d := (s.d.onUpd fun u => { u with stage := 3, step := 1 }).onCtx c.sq c.ord fun x => { x with turned := true }
    { s with d := d.startAction 0x0E 0 1 true }
  else
    { s with nv := s.nv.writeBoot (s.nv.activation s.d.clk.life)
             d := (s.d.onUpd fun u => { u with stage := 2, fresh := true }).refuse c {} }

/-- The turn of FWCONFIRM (R572). (log 97 DEDUCED) -/
def State.turnConfirm (c : Ctx) (s : State) : State :=
  if s.d.upd.stage ≠ 4 then { s with d := s.d.refuse c (firmwareConflict 2) }
  else
    let nv := (s.nv.writeBoot { s.nv.boot with trial := false }).blow (headerLevel (s.nv.header s.nv.boot.slot))
    let s' := ({ s with nv := nv, d := s.d.onUpd fun u => { u with stage := 0, trialEnd := none, fresh := true } } : State).storeConfig
    { s' with d := (s'.d.raise 0x1F4 (leBytes 8 (nv.slotRev nv.boot.slot) ++ leBytes 2 nv.fuses)).refuse c {} }

/-- 24 hours of life clock (R573). -/
def trialLife : Nat := 86400000000000

/-- The body of the inactive slot hashes as its header says (R568 step 1). -/
def Nv.bodyOk (slot : Nat) (v : Nv) : Bool :=
  let h := v.header slot
  headerOk h && sha384 (v.read (slotBase slot + 4096) (le h 0x10 4)) == slice h 0x20 48

/-- The FWACTIVATE that waits for its live activation. -/
def Drive.activator (d : Drive) : Option Ctx := d.kvx.ctxs.find? fun c => c.op == 0x52 && c.turned && !c.settled

/-- Settles the FWACTIVATE of a live activation. -/
def Drive.activateEnds (r : Res) (d : Drive) : Drive :=
  match d.activator with
  | some c => d.settle c r 0 none
  | none => d

/-- A cluster does not start on the new image; which one is open (R570). -/
def Drive.clusterFails (d : Drive) : Drive :=
  let r := d.drawNat
  r.2.raise 0x1F5 (leBytes 1 (r.1 % 4))

/-- A live activation or rollback ends (R568 steps 7 and 8, R570, R573). -/
def State.activationEnds (ok : Bool) (stall : Nat) (s : State) : State :=
  let s := { s with d := s.d.onUpd fun u => { u with step := 0, stall := stall } }
  if s.d.upd.stage = 3 then
    if !s.nv.bodyOk s.nv.inactive then
      { s with d := (s.d.onUpd fun u => { u with stage := 0, fresh := true }).activateEnds (firmwareConflict 1) }
    else if ok then
      let r := s.nv.activation s.d.clk.life
      let d := s.d.onUpd fun u => { u with stage := 4, fresh := true, trialEnd := some (s.d.clk.life + trialLife) }
      { s with nv := s.nv.writeBoot r, d := (d.raise 0x1F2 (leBytes 8 r.rev)).activateEnds {} }
    else
      { s with d := ((s.d.onUpd fun u => { u with stage := 1 }).clusterFails).activateEnds (.failed stInternal 0xC (leBytes 4 0x0E000001)) }
  else if s.d.upd.stage = 5 then
    if ok then
      let b := s.nv.boot
      let r : BootRec := { b with slot := b.prevSlot, trial := false, recovered := false, trials := 0, prevSlot := b.slot, rev := b.prevRev
                                  prevRev := b.rev, actLife := 0 }
      { s with nv := s.nv.writeBoot r
               d := (s.d.onUpd fun u => { u with stage := 0, trialEnd := none, fresh := true }).raise 0x1F3
                 (leBytes 8 b.rev ++ leBytes 1 s.d.upd.cause) }
    else { s with d := (s.d.onUpd fun u => { u with stage := 4 }).clusterFails }
  else s

/-- A return to the previous image begins: cause 0 the 24 hours, 1 the host. -/
def Drive.rollback (cause : Nat) (d : Drive) : Drive :=
  (d.onUpd fun u => { u with stage := 5, step := 1, cause := cause }).startAction 0x0E 0 1 (cause == 1)

/-- The 24 hours have passed. -/
def Drive.trialOver (d : Drive) : Drive :=
  match d.upd.trialEnd with
  | some t => if d.upd.stage = 4 ∧ t ≤ d.clk.life then d.rollback 0 else d
  | none => d

/-- A write to `UPD_CMD` (R590). -/
def Drive.updCmd (v : Word) (d : Drive) : Drive :=
  let n := v.toNat
  if field n 24 8 ≠ 0x55 then d.onUpd fun u => { u with cmdErr := true }
  else if !bit n 0 then d
  else if d.upd.stage = 4 then d.rollback 1
  else d.onUpd fun u => { u with cmdErr := true }

/-! Live actions (R575-R579). -/

/-- The port of an island. -/
def islPort (i : Nat) : Port := if i = 2 then .a else .b

/-- What a fence or reset of an island does at once: a port loses its link, the CAM is emptied, a channel stops. -/
def Drive.islStarts (cmd i : Nat) (d : Drive) : Drive :=
  if cmd = 2 then d
  else if i = 2 ∨ i = 3 then d.linkLost (islPort i)
  else if i = 6 then d.onIdx fun x => ({ x with cam := [] } : Idx).updates 1 x.indexTile
  else if i ≥ 0x10 then d.onMed fun m => m.onChan (i - 0x10) fun c => if c.state = 0 then { c with state := 1 } else c
  else d

/-- Working cores once island `i` is out of service. -/
def Upd.workingWithout (i : Nat) (u : Upd) : Nat := (u.working.filter fun c => clusterIsland (c / 8) != i).length

/-- A write to `ISL_CMD` on island `i`. (log 64 DEDUCED) -/
def Drive.islCmd (v : Word) (i : Nat) (d : Drive) : Drive :=
  let cmd := field v.toNat 0 4
  let fenced := d.upd.fenced.contains i
  if field v.toNat 24 8 ≠ 0x49 || !islAllowed cmd i || d.actBusy i || (cmd == 1 && fenced) || (cmd == 2 && !fenced)
      || (cmd != 2 && decide (9 ≤ i) && decide (i ≤ 0xC) && decide (d.upd.workingWithout i < 12)) then d.actError
  else
    let d := d.onUpd fun u =>
      { u with fenced := if cmd = 1 then u.fenced ++ [i] else u.fenced, inReset := if cmd = 3 then u.inReset ++ [i] else u.inReset }
    (d.islStarts cmd i).startAction (islAction i) cmd i true


/-- The watches as the pattern engine takes them: ID, key space and pattern. -/
def Drive.watchPats (d : Drive) : List (Nat × Nat × Bytes) := d.kvx.watches.map fun w => (w.id, w.ks, w.pat)

/-- Pattern work finds a quad again after a tile was fenced (R313): another pattern quad, else an index quad without a fenced tile,
else firmware. -/
def Drive.patternMove (d : Drive) : Drive :=
  match d.idx.workQuad with
  | some q => d.onIdx (Idx.moveSearches q)
  | none =>
    match (List.range 4).find? fun q => !d.idx.patternQuad q && d.idx.quadWhole q with
    | some q => d.onIdx fun i => (i.makePattern q d.watchPats).moveSearches q
    | none => if d.idx.fwMatch then d else (d.onIdx fun i => { i with fwMatch := true }).raise 0x183 []

/-- A tile is fenced (R308, R313, R575). -/
def Drive.fenceTile (t : Nat) (host : Bool) (d : Drive) : Drive :=
  if t ≥ 16 ∨ (d.idx.tile t).fenced then d
  else
    let d := d.onIdx fun i =>
      { (i.onTiles (· == t) fun x => { x with fenced := true, pend := true, todo := 0 }) with cam := i.cam.filter fun r => r.tile != t }
    let d := (d.raise 0x182 (leBytes 1 t)).startAction 0x02 0 t host
    if d.idx.patternQuad (t / 4) then d.patternMove else d

/-- The host replaces a working core. -/
def Drive.replaceCore (core : Nat) (d : Drive) : Drive := (d.dropCore core).startAction 0x01 0 core true

/-- The number of a port's lane. -/
def portLane (p : Port) (lane : Bool) : Nat := (match p with | .a => 0 | .b => 2) + bitAt 0 lane

/-- A lane of a port is retrained: its link is lost (R575). Lanes 0 and 1 are A0 and A1, 2 and 3 are B0 and B1. (log 61 DEDUCED) -/
def Drive.retrainLane (lane : Nat) (host : Bool) (d : Drive) : Drive :=
  (d.linkLost (if lane < 2 then .a else .b)).startAction 0x05 0 lane host

/-- A write to `ISL_ACT` (R591). (log 61 DEDUCED) -/
def Drive.islAct (v : Word) (d : Drive) : Drive :=
  let n := v.toNat
  let a := field n 16 8
  let t := field n 0 16
  if field n 24 8 ≠ 0x49 || a = 0 || a > 5 || d.actBusy (actIsland a t) then d.actError
  else
    match a with
    | 1 =>
      let spare := (bitsOf d.upd.spares).any fun i => i / 8 == t / 8
      if t ≥ 32 || !(bitsOf d.upd.cores).contains t || (!spare && decide (d.upd.working.length ≤ 12)) then d.actError else d.replaceCore t
    | 2 => if t ≥ 16 ∨ (d.idx.tile t).fenced then d.actError else d.fenceTile t true
    | 3 =>
      let x := d.med.die t
      if t ≥ 512 ∨ (x.state ≠ 0 ∧ x.state ≠ 2) ∨ x.pos ≥ 15 then d.actError else d.retirePos (t / 16) x.pos true
    | 4 => if t ≥ 512 ∨ (d.med.die t).state = 3 then d.actError else d.startAction 0x04 0 t true
    | _ => if t ≥ 4 then d.actError else d.retrainLane t true

/-- The registers of the index island after its reset: counters and flags at their reset values; roles, pre-filters and fences stand
(R331, R579). (log 136 DEDUCED) -/
def Idx.restarted (i : Idx) : Idx :=
  { (i.onTiles (fun _ => true) fun t => { t with srch := 0, upd := 0, idle := 0, grpe := 0, ahead := 0 }) with
    cfgErr := false, camHit := 0, dramHit := 0, flashRd := 0 }

/-- The registers of the crypto island after its reset; the key store, the contexts of commands and the fences stand (R458, R484, R485,
R576). -/
def Cry.restarted (c : Cry) : Cry :=
  { c with
    alarm := 0, preempts := 0, exports := 0, authF := 0, blobF := 0, blobBusy := false, blobReason := 0, blobStatus := 0
    dig := Cry.reset.dig, ctxs := c.ctxs.filter fun x => decide (x.cls < 2) }

/-- What the reset of an island leaves in its registers. -/
def Drive.islandReset (i : Nat) (d : Drive) : Drive :=
  if i = 2 ∨ i = 3 then d.onPort (islPort i) PortSt.kept
  else if i = 6 then d.onIdx Idx.restarted
  else if i = 7 then d.onCry Cry.restarted
  else d

/-- What the end of an action changes besides its record. -/
def Drive.actionDone (a : Action) (ok : Bool) (d : Drive) : Drive :=
  let i := a.target
  match a.code with
  | 0x02 => d.onIdx fun x => x.onTiles (· == i) fun t => { t with pend := false }
  | 0x04 =>
    if ok then
      let r := d.drawNat
      r.2.onMed fun m => m.onDie i fun x => { x with table := x.table + 1, entry := some (r.1 % 16), calAt := d.clk.installed }
    else d
  | 0x08 => if ok then d.trained i else d.onDmc fun m => m.onChan i fun c => if c.state = 2 then { c with state := 0 } else c
  | _ =>
    if !(List.contains [0x06, 0x07, 0x0A, 0x0C, 0x0D] a.code) then d
    else
      let d := d.onUpd fun u =>
        { u with
          fenced := if (a.op = 1 && !ok) || (a.op = 2 && ok) then u.fenced.filter (· != i) else u.fenced
          inReset := if a.op = 3 then u.inReset.filter (· != i) else u.inReset
          resets := if a.op = 3 && ok then setKey u.resets i (wrap32 (lookupD u.resets i 0 + 1)) else u.resets }
      let d := if a.op = 3 && ok then d.islandReset i else d
      if a.code = 0x07 && (d.med.chan (i - 0x10)).state == 1 then d.chanRetrained (i - 0x10) ok 0
      else if a.code = 0x06 && ok && a.op != 1 then d.onPort (islPort i) fun p => { p with link := { p.link with train := true } }
      else d

/-- A live action ends (R575). -/
def State.actionEnds (serial : Nat) (ok : Bool) (stall : Nat) (s : State) : State :=
  match s.d.upd.running.find? fun a => a.serial == serial with
  | none => s
  | some a =>
    if a.code = 0x0E then let s' := s.activationEnds ok stall; { s' with d := s'.d.closeAction serial ok stall }
    else { s with d := (s.d.actionDone a ok).closeAction serial ok stall }

/-! Self-tests (R580-R583). -/

/-- Ends the running self-test with a state of `UPD_STST`, and its event with the state as page 3 codes it. -/
def Drive.endTest (st : Nat) (f : SelfTest → SelfTest) (d : Drive) : Drive :=
  match d.upd.tests with
  | t :: rest =>
    let t' := { f t with state := st, stop := d.clk.life }
    (d.onUpd fun u => { u with tests := t' :: rest }).raise 0x1F8 (leBytes 1 t'.kind ++ leBytes 1 (st - 1) ++ leBytes 1 t'.part)
  | [] => d

/-- The turn of SELFTEST. -/
def Drive.turnSelftest (c : Ctx) (d : Drive) : Drive :=
  let kind := c.e.c 0x70 1
  match d.operationFault c 10 with
  | some r => d.refuse c r
  | none =>
    if kind = 0xF then (d.endTest 4 id).refuse c {}
    else
      let t : SelfTest := { kind := kind, state := 1, part := 0, unit := 0, loc := 0, read := 0, step2 := 0, waited := 0, pct := 0
                            start := d.clk.life, stop := 0 }
      (d.onUpd fun u => { u with tests := (t :: u.tests).take 8, tested := true }).refuse c {}

/-- The ordinary handling of the part that failed a self-test (R582). -/
def Drive.partFails (part unit : Nat) (d : Drive) : Drive :=
  match part with
  | 1 => if unit < 24 then d.katFails unit else d
  | 2 => d.fenceTile unit false
  | 3 => if unit < 4 then d.retireChannel unit else d
  | 4 => d.retirePos (unit / 16) (d.med.die unit).pos false
  | 5 => d.isolate unit 1 false
  | 6 =>
    let i := if unit = 0 then 2 else 3
    if d.upd.fenced.contains i then d
    else ((d.onUpd fun u => { u with fenced := u.fenced ++ [i] }).islStarts 1 i).startAction 0x06 1 i false
  | 7 => d.retirePos (unit / 16) (d.med.die unit).pos false
  | 8 => if unit < 4 then d.retireChannel unit else d
  | _ => d

/-- What a unit of a test begun at `start` does besides its result (R580): part 5 runs a measurement round, part 7 marks the segment of a
codeword that failed steps 1 to 3 for refresh and reads dies (R344), part 8 runs a patrol. -/
def Drive.testWork (start : Nat) (x : TestUnit) (d : Drive) : Drive :=
  if x.part = 5 then (if d.bank.round.isSome ∨ start ≤ d.bank.lastStart then d else d.roundDue.roundStart)
  else if x.part = 7 then
    let d := d.dieReads ((List.range 512).filter fun i => (d.med.die i).state != 3)
    if x.locator = 0 then d else (d.markSeg x.locator).ownStep (d.med.posDie (locCh x.locator) (locPos x.locator)) 2
  else if x.part = 8 then (if d.dmc.patrolAt.any fun t => decide (start ≤ t) then d else d.onDmc Dmc.patrolStart)
  else d

/-- One unit of self-test work ends. -/
def Drive.testUnit (x : TestUnit) (d : Drive) : Drive :=
  match d.upd.tests with
  | t :: rest =>
    if t.state ≠ 1 then d
    else
      let t' := { t with read := t.read + x.read, step2 := t.step2 + x.step2, waited := t.waited + x.waited, pct := min 100 x.progress
                         loc := if t.loc = 0 then x.locator else t.loc }
      let d := (d.testWork t.start x).onUpd fun u => { u with tests := t' :: rest }
      if !x.ok then (d.endTest 3 fun t => { t with part := x.part, unit := x.unit }).partFails x.part x.unit
      else if x.last then d.endTest 2 fun t => { t with pct := 100 }
      else d
  | [] => d

/-! Sanitize (R584-R587). -/

/-- The event of a sanitize. -/
def Drive.sanEvent (d : Drive) : Drive := d.raise 0x1F7 (leBytes 1 d.upd.sanStep ++ leBytes 1 (bitAt 0 d.upd.sanBlock))

/-- The turn of SANITIZE: its start is recorded in the configuration store. -/
def State.turnSanitize (c : Ctx) (s : State) : State :=
  match s.d.operationFault c 10 with
  | some r => { s with d := s.d.refuse c r }
  | none =>
    let d := s.d.onUpd fun u =>
      { u with sanState := 1, sanBlock := bit (c.e.c 0x70 1) 0, sanStep := 1, sanPct := 0, sanStart := s.d.clk.life, sanEnd := 0, sanRet := 0 }
    let s' := ({ s with d := d.sanEvent } : State).storeConfig
    { s' with d := s'.d.refuse c {} }

/-- Step 1: snapshots are closed, watches end, the request-ID window is cleared. -/
def Drive.sanClose (d : Drive) : Drive :=
  let d := d.kvx.store.snaps.foldl (fun d n => (d.selfCommit [.snapClose n.slot]).endSnap n.handle) d
  let d := d.kvx.watches.foldl (fun d w => d.endWatch w.id true) d.drainChecks
  d.onKvx fun k => { k with window := [] }

/-- Step 3: key slots are emptied, the drive's own keys and the context export key replaced, with which exported contexts are lost (R455),
the wake code cleared. -/
def Drive.sanKeys (d : Drive) : Drive :=
  let r := d.draw 176
  let b := r.1
  let d := r.2.onKvx fun k => { k with store := { k.store with slots := [], driveKey := b.take 32, tokCur := slice b 32 32, tokPrev := slice b 64 32
                                                               fpKey := slice b 96 16, metaKey := slice b 112 64
                                                               kss := k.store.kss.map (KeySpace.keyedBy none) } }
  ((d.clearCores (fun _ => false) true).newExportKey).onJack fun j => { j with code := 0 }

/-- Step 4: every key space is removed; an empty map and checkpoint are written. -/
def Drive.sanMap (d : Drive) : Drive :=
  let d := d.onKvx fun k =>
    let left := k.staged.filter fun s => s.serial.isNone
    let ids := left.map (·.recId)
    let s := { k.store with kss := [], recs := [], snaps := [] }
    { k with
      store := s, base := s, log := [], journal := [], staged := left, packs := [], packWait := k.packWait.filter ids.contains, deleting := []
      pack := k.pack.map fun p => { p with recs := p.recs.filter fun r => ids.contains r } }
  let d := d.idx.rebuild.foldl (fun d ks => d.raise 0x181 (leBytes 2 ks ++ leBytes 1 (bitAt 0 (d.idx.full.contains ks)))) d
  let d := d.onIdx fun i => { i with cam := [], pages := [], cached := [], lost := [], rebuild := [], full := [] }
  (d.onMed fun m => { m.giveUp (if d.upd.sanBlock then 0 else 1) with segs := [], marks := [], due := [], nextSeg := 0, segBase := m.segBase + 1, gcState := 0 }).onUpd
    fun u => { u with sanStep := if u.sanBlock then 5 else 6 }

/-- Step 5: every block is erased; `retired` blocks failed and are retired. Which ones is open. -/
def Drive.sanErase (retired : Nat) (d : Drive) : Drive :=
  let bad := (Config.sweepFails d.free).take retired
  (bad.foldl (fun (d : Drive) l => d.blockFails l 1) { (d.onMed Med.sweep) with free := d.free + 1 }).onUpd fun u =>
    { u with sanRet := retired, sanPct := 100, sanStep := 6 }

/-- The step in progress is complete; step 6 follows the last one at once. (log 66 DEDUCED) -/
def Drive.sanStep (retired : Nat) (d : Drive) : Drive :=
  let finish := fun (d : Drive) =>
    if d.upd.sanStep = 6 then
      (d.onUpd fun u => { u with sanState := 2, sanCount := u.sanCount + 1, sanEnd := d.clk.life }).sanEvent
    else d
  match d.upd.sanStep with
  | 1 =>
    if d.kvx.ctxs.any fun c => c.turned && !c.settled then d else (d.sanClose).onUpd fun u => { u with sanStep := 2 }
  | 2 => let r := d.draw 32; r.2.onUpd fun u => { u with nonce := r.1, sanStep := 3 }
  | 3 => (d.sanKeys).onUpd fun u => { u with sanStep := 4 }
  | 4 => finish d.sanMap
  | 5 => finish (d.sanErase retired)
  | _ => d

/-- A step of a running sanitize ends and is recorded. -/
def State.sanStepDone (retired : Nat) (s : State) : State :=
  if s.d.upd.sanState = 1 then ({ s with d := s.d.sanStep retired } : State).storeConfig else s

/-! Log pages 3, 6, 7 and 8 (R583, R587-R589). -/

/-- Page 3. -/
def Upd.page3 (u : Upd) : Bytes :=
  let one := fun (t : SelfTest) =>
    padTo 64 (leBytes 1 t.kind ++ leBytes 1 (t.state - 1) ++ leBytes 1 t.pct ++ leBytes 1 t.part ++ leBytes 4 t.unit ++ leBytes 8 t.start
      ++ leBytes 8 t.stop ++ leBytes 6 t.loc.toNat ++ leBytes 2 0 ++ leBytes 8 t.read ++ leBytes 4 t.step2 ++ leBytes 4 t.waited)
  leBytes 4 u.tests.length ++ leBytes 4 0 ++ u.tests.flatMap one

/-- Page 6. -/
def State.page6 (s : State) : Bytes :=
  let v := s.nv
  let b := v.boot
  let h := v.header v.inactive
  padTo 64 (leBytes 1 s.d.upd.stage ++ leBytes 1 b.slot ++ leBytes 1 (bitAt 0 b.trial + bitAt 1 b.recovered) ++ leBytes 1 b.trials
    ++ leBytes 2 v.fuses ++ leBytes 2 (if headerOk h then headerLevel h else 0xFFFF) ++ leBytes 8 (v.slotRev b.slot)
    ++ leBytes 8 (v.slotRev v.inactive) ++ leBytes 8 (if b.trial then b.actLife else 0) ++ leBytes 4 b.gen ++ leBytes 4 s.d.upd.falls
    ++ leBytes 4 s.d.upd.stall)

/-- Progress of step 5: an open value while it runs (R587, R590). -/
def Upd.erasePct (life : Nat) (u : Upd) : Nat :=
  if u.sanState = 1 ∧ u.sanStep = 5 then Config.erasePct u.sanCount (life - u.sanStart) % 101 else u.sanPct

/-- Page 7. -/
def Upd.page7 (life : Nat) (u : Upd) : Bytes :=
  leBytes 1 u.sanState ++ leBytes 1 (bitAt 0 u.sanBlock) ++ leBytes 1 (if u.sanState = 0 then 0 else u.sanStep) ++ leBytes 1 (u.erasePct life)
    ++ leBytes 4 u.sanCount ++ leBytes 8 u.sanStart ++ leBytes 8 u.sanEnd ++ leBytes 4 u.sanRet ++ leBytes 4 0

/-- Page 8. -/
def Upd.page8 (u : Upd) : Bytes :=
  let shown := u.actions.filter fun a => a.state != 3
  let one := fun (a : Action) =>
    leBytes 1 a.code ++ leBytes 1 a.state ++ leBytes 1 (if a.host then 0 else 1) ++ leBytes 1 0 ++ leBytes 4 a.target ++ leBytes 8 a.start
      ++ leBytes 8 a.stop ++ leBytes 4 a.stall ++ leBytes 4 a.serial
  leBytes 4 shown.length ++ leBytes 4 0 ++ leBytes 8 ((shown.getLast?.map (·.serial)).getD 0) ++ (sortLt (fun a b => decide (a.serial < b.serial)) shown).flatMap one

/-! Rows. -/

def execTrialTimeout (s : State) : Host.Outcome State Fault Refusal := .next { s with d := s.d.trialOver }

def execSanitizeStepComplete (retired : Nat) (s : State) : Host.Outcome State Fault Refusal := .next (s.sanStepDone retired)

def execSelftestUnit (u : TestUnit) (s : State) : Host.Outcome State Fault Refusal := .next { s with d := s.d.testUnit u }

def execCoreFailure (core : Fin 32) (s : State) : Host.Outcome State Fault Refusal := .next { s with d := s.d.coreFails core.val }


/-- R600, R575: a lane degrades. Whether the drive then retrains it is an open value; no retrain follows while one of that lane runs or waits,
or without a link. (log 164 DESIGN CHOICE) -/
def execNetFecdeg (port : Port) (lane : Bool) (s : State) : Host.Outcome State Fault Refusal :=
  let n := portLane port lane
  let d := s.d.raise (portSrc port + 3) (leBytes 1 (bitAt 0 lane))
  let runs := d.upd.actions.any fun a => a.code == 5 && a.target == n && (a.state == 0 || a.state == 3)
  let d' : Drive := { d with free := d.free + 1 }
  .next { s with d := if (d.port port).link.up && !runs && Config.fecRetrains d.free then d'.retrainLane n false else d' }

end Sys2Proof.Machine
end

