-- ==== Sys2Proof/Machine/RegRead.lean ====
section
/-! DEFINITION. The registers as they read: blocks and islands, per-path copies, one function for each block, the upper-half
latches (19 and the register sections of 03, 08-14, 16-18). -/

namespace Sys2Proof.Machine

/-! Paths and their copies (R650, R651). -/

def pathCode : Path → Nat
  | .smbus => 0
  | .admin => 1
  | .preload => 2

def Sys.path (p : Path) (y : Sys) : PathRegs :=
  match p with
  | .smbus => y.smbus
  | .admin => y.admin
  | .preload => y.preload

def Drive.onPath (p : Path) (f : PathRegs → PathRegs) (d : Drive) : Drive :=
  d.onSys fun y =>
    match p with
    | .smbus => { y with smbus := f y.smbus }
    | .admin => { y with admin := f y.admin }
    | .preload => { y with preload := f y.preload }

/-- The value of a select register on a path. -/
def Drive.sel (p : Path) (off : Nat) (d : Drive) : Nat := lookupD (d.sys.path p).sel off 0

/-- The value of a staging register on a path. -/
def Drive.staged (p : Path) (off : Nat) (d : Drive) : Nat := lookupD (d.sys.path p).staging off 0

/-! Blocks, islands, copies (R649, R652, R653). -/

/-- An offset of the always-on island inside a block of another. -/
def alwaysOn (off : Nat) : Bool :=
  (decide (0x2014 ≤ off) && decide (off ≤ 0x2020)) || (decide (0x308C ≤ off) && decide (off ≤ 0x3094)) || off == 0x30A0 || off == 0x30A4
    || off == 0xD200 || off == 0xD204 || (decide (0xD210 ≤ off) && decide (off ≤ 0xD21C)) || off == 0xF104

/-- A staging register (R651). -/
def isStaging (off : Nat) : Bool :=
  (decide (0x304C ≤ off) && decide (off ≤ 0x305C)) || (decide (0x404C ≤ off) && decide (off ≤ 0x405C))
    || (decide (0xB300 ≤ off) && decide (off ≤ 0xB3BC)) || off == 0xD208 || off == 0xD20C

/-- The bits of the field of a select register (R653); none for another offset. -/
def selectMask (off : Nat) : Option Nat :=
  match off with
  | 0x1000 => some 0x3F
  | 0x5000 => some 0xFFF
  | 0x6000 => some 0xBFFF
  | 0x8000 => some 0xF
  | 0x9000 => some 0x1F
  | 0x9004 => some 0xF
  | 0xA000 => some 3
  | 0xB000 => some 0x1FFF
  | 0xC000 => some 3
  | 0xD000 => some 0x1FF
  | 0x3068 => some 0xFF
  | 0x4068 => some 0xFF
  | 0x3048 => some 0x7F
  | 0x4048 => some 0x7F
  | _ => none

/-- What is stored for a value that names no instance (R15, R653). -/
def selectClamp (off v : Nat) : Option Nat :=
  if off = 0x1000 ∧ ((0x0D ≤ v ∧ v ≤ 0x0F) ∨ 0x30 ≤ v) then some 0x2F
  else if (off = 0x3068 ∨ off = 0x4068) ∧ 0xC0 ≤ v then some 0xBF
  else none

/-- The island of a block (R649). -/
def blockIsland (block : Nat) : Nat :=
  match block with
  | 3 => 2
  | 4 => 3
  | 5 => 4
  | 6 => 5
  | 7 => 5
  | 8 => 6
  | 0xA => 8
  | 0xB => 7
  | 0xC => 7
  | _ => 1

/-- The island that an access to `off` needs: the management island for every copy of R651. -/
def regIsland (off : Nat) : Nat :=
  if alwaysOn off then 0 else if (selectMask off).isSome || isStaging off then 1 else blockIsland (off / 0x1000)

/-! `SYS` and `ISL` (R657, R591). -/

def Drive.readSys (p : Path) (o : Nat) (d : Drive) : Nat :=
  match o with
  | 0 => 0x4B72 * 2 ^ 16 + Config.dieRev.toNat * 256 + Config.modRev.toNat
  | 4 => pathCode p
  | 8 => bitAt 1 (d.sys.path p).selErr + bitAt 0 (d.sys.path p).islDown
  | 0xC => fbits 16 16 (d.sys.path p).selReg + fbits 0 6 (d.sys.path p).isl
  | _ => 0

def Drive.readIsl (p : Path) (o : Nat) (d : Drive) : Nat :=
  let i := d.sel p 0x1000
  match o with
  | 0x000 => i
  | 0x004 =>
    let st := d.islState i
    fbits 29 3 st + bitAt 28 (st != 0) + bitAt 27 (d.upd.running.any fun a => a.island == i)
  | 0x00C => wrap32 (lookupD d.upd.resets i 0)
  | 0x104 =>
    bitAt 16 d.upd.actErr + (match d.upd.hostAction with
      | none => 0
      | some a => bitAt 31 (a.state == 0 || a.state == 3) + fbits 29 2 (if a.state = 1 then 1 else if a.state = 2 then 2 else 0)
          + fbits 0 16 a.serial)
  | 0x108 => (maskOf d.upd.working).toNat
  | 0x10C => d.upd.spares.toNat
  | _ => 0

/-! `PWR` (R537, R417). -/

def Drive.readPwr (o : Nat) (d : Drive) : Nat :=
  let p := d.pwr
  match o with
  | 0x000 =>
    fbits 22 2 p.capEff + fbits 20 2 p.capSel + fbits 16 3 p.roCause + (match p.change with
      | some c => bitAt 12 true + fbits 8 4 c.target
      | none => 0) + fbits 4 4 p.last + fbits 0 4 p.cur
  | 0x008 =>
    let busy := !p.cmdQ.isEmpty || (match p.change with
      | some c => c.byPwr
      | none => false)
    bitAt 31 busy + bitAt 30 p.cmdErr + fbits 16 8 p.cmdDet + fbits 0 16 p.cmdStat
  | 0x00C => p.bootMode
  | 0x010 => p.autoIdle
  | 0x014 => fbits 4 3 p.wakeSrc + bitAt 1 p.share + bitAt 0 p.pinEn
  | 0x018 => p.alarm % 2 ^ 32
  | 0x01C => p.alarm / 2 ^ 32
  | 0x020 => bitAt 31 p.req + bitAt 30 p.good + bitAt 29 p.mainOk + fbits 0 3 p.why
  | 0x024 => fbits 16 16 p.peak + fbits 0 16 p.avg
  | 0x028 => p.trans
  | _ => 0

def Section.word (s : Section) : Nat := fbits 30 2 s.state + fbits 27 3 s.cause + fbits 16 11 s.cap + fbits 8 8 s.esr + fbits 0 8 s.vc

def Drive.readBank (o : Nat) (d : Drive) : Nat :=
  let b := d.bank
  if 0x20 ≤ o ∧ o ≤ 0x3C then (b.sect ((o - 0x20) / 4)).word
  else
    match o with
    | 0x00 => b.stageCap
    | 0x04 =>
      bitAt 31 b.en + bitAt 30 b.lowE + bitAt 29 (!d.kvx.admq.isEmpty) + bitAt 28 b.overE + bitAt 27 b.chg + bitAt 0 b.cmdErr
    | 0x08 => fbits 16 13 b.limit + fbits 0 13 b.elim
    | 0x0C => d.kvx.dirtyKib
    | 0x10 => fbits 0 16 b.emeas
    | 0x14 =>
      let st := if b.chg then 2 else if b.round.isSome then 1 else 0
      let age := match b.lastEnd with
        | some t => min 0xFFFF ((d.clk.life - t) / 1000000000)
        | none => 0xFFFF
      fbits 30 2 st + fbits 27 3 (b.round.getD 0) + age
    | 0x44 => if b.chg then Config.bankRamp d.clk.life % 137 else fbits 0 8 b.bankV
    | 0x48 => b.waits
    | 0x4C => b.unprot
    | 0x50 => b.holdUps
    | 0x54 => bitAt 31 b.sealOk + bitAt 30 b.ckptOk + fbits 0 16 b.flushMs
    | 0x58 => fbits 16 16 b.dropped + fbits 0 16 b.replayMs
    | _ => 0

/-! `NETA`, `NETB` (R452, R453). -/

/-- The five staging words of a filter entry. -/
def Filter.words (x : Filter) : List Nat :=
  [ x.dmac % 2 ^ 32, fbits 16 16 x.etype + x.dmac / 2 ^ 32, fbits 16 6 x.dscp + fbits 12 3 x.pcp + fbits 0 12 x.vid, fbits 0 16 x.udp,
    fbits 16 6 x.cls + bitAt 8 x.untag + bitAt 7 x.udpEn + bitAt 6 x.dscpEn + bitAt 5 x.etypeEn + bitAt 4 x.pcpEn + bitAt 3 x.vidEn
      + fbits 1 2 x.dmode + bitAt 0 x.valid ]

/-- The entry that five staging words spell. -/
def Filter.ofWords (w : Nat → Nat) : Filter :=
  { dmac := w 0 + field (w 1) 0 16 * 2 ^ 32, etype := field (w 1) 16 16, dscp := field (w 2) 16 6, pcp := field (w 2) 12 3
    vid := field (w 2) 0 12, udp := field (w 3) 0 16, cls := field (w 4) 16 6, untag := bit (w 4) 8, udpEn := bit (w 4) 7
    dscpEn := bit (w 4) 6, etypeEn := bit (w 4) 5, pcpEn := bit (w 4) 4, vidEn := bit (w 4) 3, dmode := field (w 4) 1 2
    valid := bit (w 4) 0 }

/-- The base of a port's block. -/
def netBase : Port → Nat
  | .a => 0x3000
  | .b => 0x4000

def Drive.readNet (p : Path) (q : Port) (o : Nat) (d : Drive) : Nat :=
  let x := d.port q
  let l := x.link
  let mac := macOf q
  let i := d.sel p (netBase q + 0x48)
  if 0x4C ≤ o ∧ o ≤ 0x5C then d.staged p (netBase q + o)
  else if 0x74 ≤ o ∧ o ≤ 0x88 then field x.half (8 * (o - 0x74)) 32
  else if 0x20 ≤ o ∧ o ≤ 0x2C then field x.ip6 (8 * (o - 0x20)) 32
  else
    match o with
    | 0x00 => bitAt 31 l.anEn + fbits 16 5 l.adv + bitAt 8 l.fec25 + fbits 0 4 l.mode
    | 0x04 =>
      bitAt 31 l.up + bitAt 30 l.train + bitAt 29 (q == .a && d.jack.onLane) + bitAt 28 l.fecOn + fbits 24 4 l.res + bitAt 0 l.cfgErr
    | 0x0C => l.downs
    | 0x10 => x.maxFrm
    | 0x14 => mac % 2 ^ 32
    | 0x18 => field mac 32 16
    | 0x1C => x.ip4
    | 0x30 => bitAt 31 x.tagEn + fbits 12 3 x.pcp + fbits 0 12 x.vid
    | 0x34 => fbits 8 6 x.cnpDscp + fbits 0 6 x.dscp
    | 0x38 => fbits 30 2 x.flow.fc + fbits 16 3 x.flow.prio + fbits 0 16 x.flow.quanta
    | 0x3C => fbits 16 16 x.flow.high + fbits 0 16 x.flow.low
    | 0x40 => bitAt 31 x.flow.ctEn + fbits 16 3 x.flow.ctMin + fbits 8 3 x.flow.ctCur
    | 0x44 => fbits 0 6 x.rxDef
    | 0x48 => i
    | 0x64 => wrap32 (lookupD x.hits i 0)
    | 0x68 => d.sel p (netBase q + 0x68)
    | 0x94 => if q == .a then bitAt 31 d.jack.arm + bitAt 30 (d.jack.code != 0) + bitAt 29 d.jack.lock else 0
    | 0x98 => x.nhMac % 2 ^ 32
    | 0x9C => field x.nhMac 32 16
    | 0xA0 => if q == .a then d.jack.bad else 0
    | 0xA4 => if q == .a then d.jack.ok else 0
    | _ => 0

/-! `XPT` (R133, R454). -/

def ConnState.code : ConnState → Nat
  | .free => 0
  | .held => 1
  | .awaitingHello => 2
  | .ready => 3
  | .closing => 4

def AltState.code : AltState → Nat
  | .none => 0
  | .armed => 1
  | .migrated => 2

def PathParam.word (x : PathParam) : Nat :=
  fbits 19 5 x.rnrTimer + fbits 14 5 x.ackTo + fbits 11 3 x.rnrRetry + fbits 8 3 x.retry + bitAt 3 x.portB + fbits 0 3 x.pmtu

/-- (log 84 DEDUCED) -/
def Drive.readXpt (p : Path) (o : Nat) (d : Drive) : Nat :=
  let c := d.sel p 0x5000
  let x := d.xpt.conn c
  let n := d.xpt.net c
  let t := d.xpt
  if 0x1C ≤ o ∧ o ≤ 0x28 then field x.path.rip (8 * (o - 0x1C)) 32
  else if 0x504 ≤ o ∧ o ≤ 0x510 then field n.altIp (8 * (o - 0x504)) 32
  else
    match o with
    | 0x000 => c
    | 0x004 => bitAt 7 x.cmdErr + bitAt 6 x.preprov + bitAt 5 x.path.portB + x.state.code
    | 0x008 => x.tenant
    | 0x00C => fbits 0 24 x.qpn
    | 0x010 => fbits 0 24 x.path.rqpn
    | 0x014 => fbits 0 24 x.sPsn0
    | 0x018 => fbits 0 24 x.rPsn
    | 0x02C => x.path.rmac % 2 ^ 32
    | 0x030 => field x.path.rmac 32 16
    | 0x034 => x.path.word
    | 0x03C => x.authF
    | 0x040 => x.sendX
    | 0x044 => x.dbX
    | 0x048 => x.dbKey
    | 0x100 => t.cmPort
    | 0x104 => t.helloTo
    | 0x108 => fbits 16 14 t.cqMax + fbits 0 14 t.sqMax
    | 0x10C => (t.conns.filter fun y => y.state != .free).length
    | 0x400 =>
      bitAt 31 t.ect + bitAt 30 t.npEn + bitAt 29 t.rpEn + fbits 16 3 t.dec + fbits 8 8 t.inc + fbits 0 8 t.minRate
    | 0x404 => fbits 16 16 t.incUs + fbits 0 16 t.cnpUs
    | 0x408 => t.cnpTx
    | 0x40C => t.cnpRx
    | 0x410 => t.reTx
    | 0x414 => t.nakRx
    | 0x418 => t.migr
    | 0x41C => t.badReq
    | 0x500 => fbits 30 2 n.alt.code + bitAt 29 n.altPortB
    | 0x514 => n.altMac % 2 ^ 32
    | 0x518 => field n.altMac 32 16
    | 0x51C => fbits 0 16 n.rate
    | 0x520 => wrap32 n.cnps
    | _ => 0

/-! `HQ`, `KVX` (R132, R658). -/

def Drive.readSq (o : Nat) (s : Sq) (d : Drive) : Nat :=
  match o with
  | 0x04 => bitAt 31 true + bitAt 30 s.admin + bitAt 29 s.strict + bitAt 28 s.freeze.isSome + bitAt 27 s.faulted + fbits 0 17 s.depth
  | 0x08 => fbits 0 12 s.conn
  | 0x0C => fbits 0 14 s.cq
  | 0x10 => s.addr % 2 ^ 32
  | 0x14 => s.addr / 2 ^ 32
  | 0x18 => s.rkey
  | 0x1C => fbits 16 16 (s.tail % s.depth) + fbits 0 16 (s.head % s.depth)
  | 0x20 => s.dbSeq
  | 0x24 => fbits 16 16 s.credit + fbits 0 8 (if s.admin then 255 else s.weight)
  | 0x28 => fbits 0 17 (d.outstanding s.id)
  | 0x34 => s.stale
  | 0x38 => s.bad
  | _ => 0

def Drive.readCq (o : Nat) (q : Cq) (d : Drive) : Nat :=
  let event := match d.conn? q.conn with
    | some c => c.eventCq == q.id
    | none => false
  match o with
  | 0x04 => bitAt 31 true + bitAt 30 q.admin + bitAt 29 event + bitAt 27 q.faulted + fbits 0 17 q.depth
  | 0x08 => fbits 0 12 q.conn
  | 0x10 => q.addr % 2 ^ 32
  | 0x14 => q.addr / 2 ^ 32
  | 0x18 => q.rkey
  | 0x1C => fbits 16 16 (q.tail % q.depth) + fbits 0 16 (q.head % q.depth)
  | 0x20 => q.dbSeq
  | 0x2C => bitAt 31 q.nen + fbits 16 10 q.time + fbits 0 9 q.count
  | 0x30 => fbits 0 17 (d.reserved q.id)
  | 0x34 => q.stale
  | 0x38 => q.bad
  | 0x3C => q.evLost
  | _ => 0

def Drive.readHq (p : Path) (o : Nat) (d : Drive) : Nat :=
  let q := d.sel p 0x6000
  match o with
  | 0x000 => q
  | 0x100 => fbits 0 17 d.kvx.ctxs.length
  | 0x104 => fbits 0 17 d.hq.hwm
  | 0x10C => fbits 16 15 d.hq.cqs.length + fbits 0 15 d.hq.sqs.length
  | 0x110 => d.hq.fullCnt
  | _ =>
    if 0x40 ≤ o then 0
    else if bit q 15 then
      match d.cq? (q % 0x4000) with
      | some c => d.readCq o c
      | none => 0
    else
      match d.sq? (q % 0x4000) with
      | some s => d.readSq o s
      | none => 0

/-! `IDX` (R331). -/

/-- The rebuild state at life clock `t` (R329, R331): the media is read for 20 minutes at least. (log 123 DESIGN CHOICE) -/
def Idx.rbState (t : Nat) (i : Idx) : Nat :=
  if i.rebuild.isEmpty then 0 else if t < i.rbEnd then 1 else 2

def Drive.readIdx (p : Path) (o : Nat) (d : Drive) : Nat :=
  let i := d.idx
  let t := d.sel p 0x8000
  let x := i.tile t
  match o with
  | 0x000 => t
  | 0x004 =>
    let role := if x.fenced then 2 else if i.patternQuad (t / 4) then 1 else 0
    fbits 30 2 role + bitAt 29 x.pend + fbits 17 7 (i.openGroups t).length + fbits 0 17 (i.rows t)
  | 0x008 => bitAt 31 x.pfEn + fbits 0 8 x.pos
  | 0x100 => bitAt 4 i.pnext.isSome + fbits 0 4 (i.pnext.getD i.pquad)
  | 0x104 => i.updCap
  | 0x108 => bitAt 1 i.fwMatch + bitAt 0 i.cfgErr
  | 0x128 => d.cachedPages
  | 0x12C => d.cacheCap
  | 0x138 =>
    let st := i.rbState d.clk.life
    fbits 30 2 st + bitAt 29 (i.rebuild.head?.any i.full.contains) + (if st = 0 then 0 else fbits 12 7 (Config.rebuildPct st (d.clk.life - i.rbAt) % 101))
      + (if st = 2 then fbits 0 12 (i.rebuild.headD 0) else 0)
  | 0x13C => fbits 0 13 (if i.rbState d.clk.life = 2 then i.rebuild.length - 1 else i.rebuild.length)
  | 0x140 => fbits 16 7 i.slots.length + fbits 0 11 d.kvx.watches.length
  | _ => 0

/-! `CSC` (R332, R648). -/

/-- A square wave on the life clock, lit in the first half of each period. (log 128 DESIGN CHOICE) -/
def Clocks.square (period : Nat) (c : Clocks) : Bool := decide (c.life % period < period / 2)

/-- The LEDs are off: disabled, or in RESET or PARKED (R629, R643). -/
def Drive.dark (d : Drive) : Bool := d.mgmt.ledDis || d.pwr.cur == 0 || d.pwr.cur == 8

/-- LED0, link: lit while a link is up, but for 50 ms from the CQE that made it blink (R643). -/
def Drive.led0 (d : Drive) : Bool :=
  !d.dark && (d.portA.link.up || d.portB.link.up) && !(d.hq.blinkAt.any fun t => decide (d.clk.life < t + 50000000))

/-- LED1, attention: 2 Hz while LOCATE is set, else lit while a CRITICAL source has its latch and enable set (R643). -/
def Drive.led1 (d : Drive) : Bool :=
  !d.dark && if d.mgmt.locate then d.clk.square 500000000 else d.evr.srcs.any fun s => s.2.sev == 2 && s.2.latch && s.2.en

/-- LED2, mode (R643). -/
def Drive.led2 (d : Drive) : Bool :=
  !d.dark && (d.pwr.active || (if d.pwr.cur = 7 ∨ d.pwr.cur = 0xB then d.clk.square 2000000000
    else [1, 2, 9].contains d.pwr.cur && d.clk.square 1000000000))

/-- Sources that hold ALERT#, lowest first (R599). -/
def Evr.alerting (e : Evr) : List Nat :=
  sortLt (fun a b => decide (a < b)) ((e.srcs.filter fun s => s.2.latch && s.2.en && s.2.alert).map (·.1))

/-- (log 72 DESIGN CHOICE) -/
def Drive.readCsc (o : Nat) (d : Drive) : Nat :=
  let c := d.csc
  let m := d.mgmt
  let s := m.session
  match o with
  | 0x000 => bitAt 2 c.clkMst + bitAt 0 c.en
  | 0x004 => bitAt 0 c.high
  | 0x008 => m.slotId.toNat
  | 0x00C =>
    bitAt 31 c.clkOk + bitAt 30 c.inRing + fbits 16 8 c.roll + fbits 8 4 c.lat + bitAt 4 c.dupMst + bitAt 3 c.dupSlot + bitAt 2 c.voided
      + bitAt 1 c.seqMm + bitAt 0 c.syncTo
  | 0x010 => c.syncMs
  | 0x01C => c.won
  | 0x020 => c.supp
  | 0x024 => c.voids
  | 0x028 => wrap32 c.lastSeq
  | 0x100 => m.addr
  | 0x104 => bitAt 0 m.secReq
  | 0x108 => bitAt 31 s.isOpen + fbits 16 8 m.eid + fbits 0 16 s.id
  | 0x10C => if s.isOpen then s.tenant else 0
  | 0x110 => m.pecErr
  | 0x114 => m.smbTo
  | 0x118 => m.mDrop
  | 0x11C => bitAt 1 m.locate + bitAt 0 m.ledDis
  | 0x120 => d.pwr.temp.toNat
  | 0x124 =>
    -- WAKE# and CASC_SYNC are read as no other module pulls the two nets
    bitAt 31 d.pwr.aux + bitAt 30 d.pwr.mainOk + bitAt 29 d.pwr.resetN + bitAt 28 d.pwr.good + bitAt 27 (!d.wakeLow)
      + bitAt 26 d.evr.alerting.isEmpty + bitAt 25 (!c.inRing || !c.find.isEmpty) + bitAt 24 (!d.pwr.req)
  | _ => 0

/-! `MED` (R385). -/

/-- Spare dies not in use. -/
def Med.spares (m : Med) : Nat := ((List.range 512).filter fun i => (m.die i).state == 1).length


/-- Hours since the last calibration of a die. -/
def Drive.calHours (i : Nat) (d : Drive) : Nat := (d.clk.installed - (d.med.die i).calAt) / 3600

/-- Write amplification over the last hour, in hundredths. -/
def Med.wa (m : Med) : Nat := if m.hostHour = 0 then 100 else (m.hostHour + m.gcWrote) * 100 / m.hostHour

/-- The flash array is running. -/
def Pwr.mediaUp (p : Pwr) : Bool := !([0, 1, 2, 8].contains p.cur)

/-- (log 82 DEDUCED) -/
def Drive.readMed (p : Path) (o : Nat) (d : Drive) : Nat :=
  let m := d.med
  let ch := d.sel p 0x9000
  let i := 16 * ch + d.sel p 0x9004
  let c := m.chan ch
  let x := m.die i
  let up := d.pwr.mediaUp
  if 0x1C ≤ o ∧ o ≤ 0x2C then wrap32 (x.lad.getD ((o - 0x1C) / 4) 0)
  else
    match o with
    | 0x000 => ch
    | 0x004 => d.sel p 0x9004
    | 0x008 => fbits 30 2 c.state + bitAt 29 c.spareUsed + fbits 20 4 (if c.state = 2 then 0 else 15 - c.vacant.length)
    | 0x00C => wrap32 c.retrains
    | 0x010 => fbits 30 2 x.state + fbits 26 4 x.pos + fbits 0 13 x.retBlk
    | 0x014 => fbits 16 16 (m.dieWear i).2 + fbits 0 16 (m.dieWear i).1
    | 0x018 => fbits 28 4 (m.entry i) + min 0x0FFFFFFF (d.calHours i)
    | 0x030 => wrap32 x.pgmF
    | 0x034 => wrap32 x.ersF
    | 0x100 => fbits 16 16 m.target + fbits 0 16 (if up then m.actual else 0)
    | 0x104 => fbits 0 16 (if up then m.bufferBytes / 2 ^ 30 else 0)
    | 0x108 => if up then fbits 0 10 d.fill else 0
    | 0x10C => if up then fbits 16 14 m.freeFrames + fbits 0 14 m.frames else 0
    | 0x110 => fbits 30 2 m.gcState + fbits 0 16 m.wa
    | 0x114 => if up then wrap32 (d.upgraded / 2 ^ 30) else 0
    | 0x118 =>
      (match m.chLost with
        | some k => bitAt 31 true + fbits 24 5 k
        | none => 0) + fbits 16 6 m.spares + fbits 0 9 m.vacancies
    | 0x11C => if up then m.margin else 0
    | 0x138 => bitAt 31 m.pacing + bitAt 30 m.near
    | 0x13C => m.scrubIv
    | 0x140 => fbits 29 3 d.scrubState + fbits 16 7 d.scrubPct + min 0xFFFF m.defer
    | _ => 0

/-! `DMC` (R511). -/

def Drive.readDmc (p : Path) (o : Nat) (d : Drive) : Nat :=
  let n := d.sel p 0xA000
  let c := d.dmc.chan n
  match o with
  | 0x000 => n
  | 0x004 =>
    let pending := if c.state = 2 then c.pending else 0
    fbits 29 3 c.state + bitAt 10 (pending != 0) + fbits 8 2 pending + fbits 4 3 c.stored + fbits 0 2 c.speed
  | 0x008 => c.ce
  | 0x00C => c.ue
  | 0x010 => c.par
  | 0x014 => c.replays
  | 0x018 => c.replayF
  | 0x01C => c.trains
  | 0x020 => (d.dmc.queue n).fwd
  | 0x02C => bitAt 31 c.errVal + bitAt 8 c.errSub + fbits 0 4 c.errReg
  | 0x030 => fbits 16 8 (d.dmc.queue n).wq.length + fbits 0 8 (d.dmc.queue n).rq.length
  | 0x100 => d.dmc.page
  | 0x104 => d.dmc.rtInt
  | 0x10C =>
    sumBy (fun k => bitAt (16 + k) ((d.dmc.chan k).state == 5)) (List.range 4) + (64 - 16 * min 2 d.dmc.retired)
  | 0x110 =>
    bitAt 31 d.dmc.patrol + fbits 16 7 d.dmc.patrolPct + (match d.dmc.patrolAt with
      | some t => min 0xFFFF ((d.clk.life - t) / 3600000000000)
      | none => 0xFFFF)
  | _ => 0

/-! `CRY`, `DIG` (R484, R485). -/

/-- First three bytes of AES-256 of the zero block under a slot's key. -/
def keyCheck (key : Bytes) : Nat := leNat ((aesEnc key (fill 16 0)).take 3)

/-- Hours since the last complete self-test round. -/
def Drive.katHours (d : Drive) : Nat :=
  match d.cry.katAt with
  | some t => min 0xFFFF ((d.clk.life - t) / 3600000000000)
  | none => 0

/-- Contexts saved on the engine and contexts exported. -/
def Drive.ctxUse (d : Drive) : Nat × Nat :=
  let live := d.cry.ctxs.filter d.ctxLive
  ((live.filter (·.isSaved)).length, (live.filter fun x => match x.place with
    | .exported _ => true
    | _ => false).length)

def Drive.readCry (p : Path) (o : Nat) (d : Drive) : Nat :=
  let n := d.sel p 0xB000
  let c := d.cry
  let st := d.kvx.store
  if 0x200 ≤ o ∧ o ≤ 0x22C then le drivePublic.1 (o - 0x200) 4
  else if 0x230 ≤ o ∧ o ≤ 0x25C then le drivePublic.2 (o - 0x230) 4
  else if 0x300 ≤ o ∧ o ≤ 0x3BC then d.staged p (0xB000 + o)
  else
    match o with
    | 0x000 => n
    | 0x004 =>
      (match st.slots.find? fun s => s.slot == n with
        | some s => fbits 30 2 (if s.persistent then 2 else 1)
        | none => 0) + fbits 0 13 (st.kss.filter fun k => k.slot == n).length
    | 0x008 =>
      match st.slots.find? fun s => s.slot == n with
      | some s => keyCheck s.key
      | none => 0
    | 0x100 => bitAt 1 c.vauth + bitAt 0 c.xts128
    | 0x104 => fbits 16 8 c.digFence + fbits 0 16 c.aesFence
    | 0x108 => fbits 0 5 c.alarm
    | 0x110 => bitAt 30 c.katRun + d.katHours
    | 0x114 => fbits 24 7 d.ctxUse.1 + fbits 0 17 d.ctxUse.2
    | 0x118 => c.preempts
    | 0x11C => c.exports
    | 0x120 => c.authF
    | 0x124 => c.blobF
    | 0x3C4 => bitAt 31 c.blobBusy + fbits 16 8 c.blobReason + fbits 0 16 c.blobStatus
    | _ => 0

def Cry.digCtx (n : Nat) (c : Cry) : DigCtx := c.dig.getD n .reset

def Drive.readDig (p : Path) (o : Nat) (d : Drive) : Nat :=
  let n := d.sel p 0xC000
  let g := d.cry.digCtx n
  if 0x40 ≤ o ∧ o ≤ 0x7C then (if g.done then le g.res (o - 0x40) 4 else 0)
  else
    match o with
    | 0x00 => n
    | 0x04 => fbits 16 4 g.alg + fbits 0 13 g.slot
    | 0x08 => bitAt 31 g.busy + bitAt 30 g.done + bitAt 29 g.isOpen + bitAt 3 g.clr + bitAt 2 g.err
    | 0x0C => g.wlo
    | 0x10 => g.whi
    | _ => 0

/-! `EVR` (R617). -/

def Src.word (s : Nat) (x : Src) : Nat :=
  bitAt 31 x.latch + bitAt 30 x.en + fbits 28 2 x.sev + bitAt 26 x.toRec + bitAt 25 x.alert + bitAt 24 x.cqe
    + (match catalogue s with
      | some c => bitAt 1 c.2
      | none => bitAt 0 true)

def Drive.readEvr (p : Path) (o : Nat) (d : Drive) : Nat :=
  let s := d.sel p 0xD000
  let e := d.evr
  if 0x100 ≤ o ∧ o ≤ 0x13C then sumBy (fun i => bitAt i (e.src (8 * (o - 0x100) + i)).latch) (List.range 32)
  else
    match o with
    | 0x000 => s
    | 0x004 => (e.src s).word s
    | 0x008 => (e.src s).count
    | 0x028 => bitAt 31 e.freeze.isSome + fbits 29 2 e.lift + fbits 0 13 e.front.length
    | 0x02C => fbits 0 14 d.freezeLeft
    | 0x030 => e.lost
    | 0x034 => fbits 0 13 e.birth
    | 0x038 => bitAt 31 (!e.alerting.isEmpty) + fbits 0 9 (e.alerting.headD 0)
    | 0x21C => bitAt 31 d.clk.wallSet + bitAt 30 d.clk.wallBack + bitAt 0 d.clk.timeErr
    | _ => 0

/-! `UPD` (R590). -/

def Upd.lastTest (u : Upd) : Nat :=
  match u.tests.head? with
  | some t => if u.tested then fbits 29 3 t.state + fbits 27 2 t.kind + fbits 16 7 t.pct + fbits 0 8 t.part else 0
  | none => 0

/-- The step of R568 in progress: the first takes 200 ms at least; when the others follow is open. -/
def Upd.stepNow (life : Nat) (u : Upd) : Nat :=
  if u.step = 0 then 0
  else
    match u.running.find? fun a => a.code == 0x0E with
    | some a => if life < a.start + 200000000 then 1 else 1 + Config.liveStep a.serial (life - a.start) % 7
    | none => u.step

def State.readUpd (o : Nat) (s : State) : Nat :=
  let u := s.d.upd
  let b := s.nv.boot
  match o with
  | 0x00 =>
    fbits 29 3 u.stage + fbits 28 1 b.slot + fbits 26 2 b.trials + bitAt 25 b.recovered + fbits 16 9 s.nv.fuses + fbits 12 4 (u.stepNow s.d.clk.life)
      + bitAt 0 u.cmdErr
  | 0x14 =>
    match u.trialEnd with
    | some t => if u.stage = 4 then fbits 0 11 ((t - s.d.clk.life) / 60000000000) else 0
    | none => 0
  | 0x18 => u.stall
  | 0x20 => u.lastTest
  | 0x24 => fbits 30 2 u.sanState + bitAt 29 u.sanBlock + fbits 26 3 u.sanStep + fbits 16 7 (u.erasePct s.d.clk.life) + min 0xFFFF u.sanCount
  | _ => 0

/-! Pairs whose halves follow the latching rule (R331). -/

/-- The value of the pair whose `_LO` register is at `off`; none where no such pair starts. (log 80 DEDUCED) -/
def State.pair (p : Path) (off : Nat) (s : State) : Option Nat :=
  let d := s.d
  let t := d.idx.tile (d.sel p 0x8000)
  match off with
  | 0x306C => some (lookupD d.portA.stats (d.sel p 0x3068) 0)
  | 0x406C => some (lookupD d.portB.stats (d.sel p 0x4068) 0)
  | 0x7000 => some d.kvx.turnSer
  | 0x800C => some t.srch
  | 0x8014 => some t.upd
  | 0x801C => some t.idle
  | 0x8024 => some t.grpe
  | 0x8110 => some d.idx.camHit
  | 0x8118 => some d.idx.dramHit
  | 0x8120 => some d.idx.flashRd
  | 0x8130 => some d.kvx.store.indexCharge
  | 0x9120 => some d.med.hostW
  | 0x9128 => some (writeCredit d.clk.installed)
  | 0x9130 => some d.clk.installed
  | 0x9144 => some d.med.lastPass
  | 0xA024 => some (d.dmc.chan (d.sel p 0xA000)).errAddr
  | 0xB128 => some d.cry.blobSer
  | 0xC01C => some (d.cry.digCtx (d.sel p 0xC000)).msg.length
  | 0xD010 => some (d.evr.nextSeq - 1)
  | 0xD018 => some d.evr.newest
  | 0xD020 => some d.evr.oldest
  | 0xD200 => some d.clk.wallTime
  | 0xD208 => some (d.staged p 0xD208 + d.staged p 0xD20C * 2 ^ 32)
  | 0xD214 => some d.clk.life
  | 0xE004 => some (s.nv.runRev d.upd.stage)
  | 0xE00C => some (s.nv.slotRev s.nv.inactive)
  | 0xF014 => some d.csc.arb
  | _ => none

/-- A register that is no half of such a pair, as it reads. -/
def State.plain (p : Path) (off : Nat) (s : State) : Nat :=
  let o := off % 0x1000
  match off / 0x1000 with
  | 0 => s.d.readSys p o
  | 1 => s.d.readIsl p o
  | 2 => if o < 0x100 then s.d.readPwr o else s.d.readBank (o - 0x100)
  | 3 => s.d.readNet p .a o
  | 4 => s.d.readNet p .b o
  | 5 => s.d.readXpt p o
  | 6 => s.d.readHq p o
  | 7 => if o = 8 then min 1048576 s.d.kvx.window.length else 0
  | 8 => s.d.readIdx p o
  | 9 => s.d.readMed p o
  | 0xA => s.d.readDmc p o
  | 0xB => s.d.readCry p o
  | 0xC => s.d.readDig p o
  | 0xD => s.d.readEvr p o
  | 0xE => s.readUpd o
  | 0xF => s.d.readCsc o
  | _ => 0

/-- The register at `off` as it stands, no latch looked at: the low or upper half of a pair, or the register itself. -/
def State.live (p : Path) (off : Nat) (s : State) : Nat :=
  match s.pair p off with
  | some v => v % 2 ^ 32
  | none =>
    match s.pair p (off - 4) with
    | some v => v / 2 ^ 32 % 2 ^ 32
    | none => s.plain p off % 2 ^ 32

end Sys2Proof.Machine
end

