-- ==== Sys2Proof/Machine/RegWrite.lean ====
section
/-! DEFINITION. What a register write does once it reaches its register: one function for each block, field by field after its
access type (R10, R655), and the commands that registers carry. -/

namespace Sys2Proof.Machine

/-- `old` with the field of width `w` at bit `lo` replaced. -/
def withField (old lo w v : Nat) : Nat := old / 2 ^ (lo + w) * 2 ^ (lo + w) + fbits lo w v + old % 2 ^ lo

/-- The flag after a write of `v` to its W1C bit `i`. -/
def w1c (v i : Nat) (f : Bool) : Bool := f && !bit v i

/-! Select and staging registers (R651-R653). -/

/-- A select register takes a value on its path. -/
def Drive.writeSel (p : Path) (off mask v : Nat) (d : Drive) : Drive :=
  let x := v &&& mask
  match selectClamp off x with
  | none => d.onPath p fun r => { r with sel := setKey r.sel off x }
  | some c =>
    (d.onPath p fun r => { r with sel := setKey r.sel off c, selErr := true, selReg := off }).raise 0x007
      (leBytes 2 off ++ leBytes 1 (pathCode p))

/-- The bits that a staging register has. -/
def stagingMask (off : Nat) : Nat :=
  match off with
  | 0x3054 => 0x3F7FFF
  | 0x4054 => 0x3F7FFF
  | 0x3058 => 0xFFFF
  | 0x4058 => 0xFFFF
  | 0x305C => 0x3F01FF
  | 0x405C => 0x3F01FF
  | _ => 0xFFFFFFFF

def Drive.writeStaging (p : Path) (off v : Nat) (d : Drive) : Drive :=
  d.onPath p fun r => { r with staging := setKey r.staging off (v &&& stagingMask off) }

/-! `SYS`, `ISL`. -/

def Drive.writeSys (p : Path) (o v : Nat) (d : Drive) : Drive :=
  match o with
  | 8 => d.onPath p fun r => { r with selErr := w1c v 1 r.selErr, islDown := w1c v 0 r.islDown }
  | _ => d

def Drive.writeIsl (p : Path) (o v : Nat) (d : Drive) : Drive :=
  match o with
  | 0x008 => d.islCmd (word v) (d.sel p 0x1000)
  | 0x100 => d.islAct (word v)
  | 0x104 => d.onUpd fun u => { u with actErr := w1c v 16 u.actErr }
  | _ => d

/-! `PWR`. -/

def Drive.writePwr (o v : Nat) (d : Drive) : Drive :=
  match o with
  | 0x004 => d.pwrCmd (word v)
  | 0x008 => d.onPwr fun p => { p with cmdErr := w1c v 30 p.cmdErr }
  | 0x00C =>
    let m := field v 0 4
    d.onPwr fun p => if 3 ≤ m ∧ m ≤ 6 then { p with bootMode := m } else { p with cmdErr := true }
  | 0x010 => d.onPwr fun p => { p with autoIdle := field v 0 16 }
  | 0x014 => d.onPwr fun p => { p with share := bit v 1, pinEn := bit v 0 }
  | 0x018 => d.onPwr fun p => { p with alarm := withField p.alarm 0 32 v }
  | 0x01C => d.onPwr fun p => { p with alarm := withField p.alarm 32 32 v }
  | _ => d

/-- `PWR_SECTCMD` (R403, R417). -/
def Drive.sectCmd (v : Nat) (d : Drive) : Drive :=
  let n := field v 0 3
  if field v 8 8 = 0xA5 ∧ (d.bank.sect n).state ≠ 2 then d.isolate n 5 true else d.onBank fun b => { b with cmdErr := true }

/-- `PWR_MEASCTL.NOW` (R400, R417). -/
def Drive.measureNow (d : Drive) : Drive := if d.pwr.serving then d.roundDue.roundStart else d

def Drive.writeBank (o v : Nat) (d : Drive) : Drive :=
  match o with
  | 0x00 => d.setStageCap (field v 0 13)
  | 0x04 => d.onBank fun b => { b with cmdErr := w1c v 0 b.cmdErr }
  | 0x18 => if bit v 0 then d.measureNow else d
  | 0x40 => d.sectCmd v
  | _ => d

/-! `NETA`, `NETB`. -/

def PortSt.cfgError (x : PortSt) : PortSt := { x with link := { x.link with cfgErr := true } }

/-- `NETx_LINKCFG`: a reserved mode is ignored (R418). -/
def PortSt.linkCfg (v : Nat) (x : PortSt) : PortSt :=
  let m := field v 0 4
  let ok := decide (1 ≤ m) && decide (m ≤ 5)
  { x with link := { x.link with anEn := bit v 31, adv := field v 16 5, fec25 := bit v 8, mode := if ok then m else x.link.mode
                                 cfgErr := x.link.cfgErr || !ok } }

/-- `NETx_FC`: mode 3 is ignored (R452). -/
def PortSt.flowCfg (v : Nat) (x : PortSt) : PortSt :=
  let m := field v 30 2
  { x with flow := { x.flow with fc := if m = 3 then x.flow.fc else m, prio := field v 16 3, quanta := max 1 (field v 0 16) }
           link := { x.link with cfgErr := x.link.cfgErr || m == 3 } }

/-- `NETx_RXWM` (R453). -/
def PortSt.watermarks (v : Nat) (x : PortSt) : PortSt :=
  let h := field v 16 16
  let l := field v 0 16
  if 256 ≤ h ∧ h ≤ 3840 ∧ l + 256 ≤ h then { x with flow := { x.flow with high := h, low := l } } else x.cfgError

/-- `NETx_TXCT`: the step never stands below the lowest (R437). -/
def PortSt.cutThrough (v : Nat) (x : PortSt) : PortSt :=
  { x with flow := { x.flow with ctEn := bit v 31, ctMin := field v 16 3, ctCur := max x.flow.ctCur (field v 16 3) } }

/-- A port takes a new address; the change is announced (R421, R422). -/
def Drive.setAddress (q : Port) (f : PortSt → PortSt) (d : Drive) : Drive :=
  let d' := d.onPort q f
  if (d'.port q).ip4 = (d.port q).ip4 ∧ (d'.port q).ip6 = (d.port q).ip6 then d' else d'.announce q

/-- `NETx_FLTCMD` LOAD (R432): the staging words of the path become the selected entry. -/
def Drive.filterLoad (p : Path) (q : Port) (d : Drive) : Drive :=
  let x := Filter.ofWords fun k => d.staged p (netBase q + 0x4C + 4 * k)
  let i := d.sel p (netBase q + 0x48)
  d.onPort q fun y => if x.dmode = 3 then y.cfgError else { y with filters := setKey y.filters i x }

/-- `NETx_FLTCMD` FETCH (R432). -/
def Drive.filterFetch (p : Path) (q : Port) (d : Drive) : Drive :=
  let ws := (d.filter q (d.sel p (netBase q + 0x48))).words
  d.onPath p fun r =>
    { r with staging := (numbered ws).foldl (fun t w => setKey t (netBase q + 0x4C + 4 * w.1) w.2) r.staging }

def Drive.writeNet (p : Path) (q : Port) (o v : Nat) (d : Drive) : Drive :=
  if 0x20 ≤ o ∧ o ≤ 0x2C then d.setAddress q fun x => { x with ip6 := withField x.ip6 (8 * (o - 0x20)) 32 v }
  else if 0x74 ≤ o ∧ o ≤ 0x88 then
    d.onPort q fun x =>
      let old := field x.half (8 * (o - 0x74)) 32
      { x with half := withField x.half (8 * (o - 0x74)) 32 (old - (old &&& v)) }
  else
    match o with
    | 0x00 => d.onPort q (PortSt.linkCfg v)
    | 0x04 => d.onPort q fun x => { x with link := { x.link with cfgErr := w1c v 0 x.link.cfgErr } }
    | 0x08 => if bit v 0 then d.linkRestart q else d
    | 0x10 => d.setMaxFrm q (field v 0 14)
    | 0x1C => d.setAddress q fun x => { x with ip4 := v }
    | 0x30 => d.onPort q fun x => { x with tagEn := bit v 31, pcp := field v 12 3, vid := field v 0 12 }
    | 0x34 => d.onPort q fun x => { x with cnpDscp := field v 8 6, dscp := field v 0 6 }
    | 0x38 => d.onPort q (PortSt.flowCfg v)
    | 0x3C => d.onPort q (PortSt.watermarks v)
    | 0x40 => d.onPort q (PortSt.cutThrough v)
    | 0x44 => d.onPort q fun x => { x with rxDef := field v 0 6 }
    | 0x60 => if field v 0 2 = 1 then d.filterLoad p q else if field v 0 2 = 2 then d.filterFetch p q else d
    | 0x8C => if q == .a then d.onJack fun j => { j with code := withField j.code 0 32 v } else d
    | 0x90 => if q == .a then d.onJack fun j => { j with code := withField j.code 32 32 v } else d
    | 0x94 => if q == .a then d.onJack fun j => { j with arm := bit v 31 } else d
    | 0x98 => d.onPort q fun x => { x with nhMac := withField x.nhMac 0 32 v }
    | 0x9C => d.onPort q fun x => { x with nhMac := withField x.nhMac 32 16 v }
    | _ => d

/-! `XPT`. -/

/-- A write to a field that is RW in HELD (R133). -/
def Drive.inHeld (c : Nat) (f : Conn → Conn) (d : Drive) : Drive :=
  if (d.xpt.conn c).state == .held then d.onXpt fun x => x.setConn (f (x.conn c)) else d

def Drive.inHeldNet (c : Nat) (f : ConnNet → ConnNet) (d : Drive) : Drive :=
  if (d.xpt.conn c).state == .held then d.onXpt (Xpt.onNet c f) else d

def Conn.onParam (f : PathParam → PathParam) (x : Conn) : Conn := { x with path := f x.path }

/-- `XPT_CPARAM`. -/
def PathParam.ofWord (v : Nat) (x : PathParam) : PathParam :=
  { x with rnrTimer := field v 19 5, ackTo := field v 14 5, rnrRetry := field v 11 3, retry := field v 8 3, portB := bit v 3
           pmtu := field v 0 3 }

def Drive.writeXpt (p : Path) (o v : Nat) (d : Drive) : Drive :=
  let c := d.sel p 0x5000
  if 0x1C ≤ o ∧ o ≤ 0x28 then d.inHeld c (Conn.onParam fun x => { x with rip := withField x.rip (8 * (o - 0x1C)) 32 v })
  else if 0x504 ≤ o ∧ o ≤ 0x510 then d.inHeldNet c fun n => { n with altIp := withField n.altIp (8 * (o - 0x504)) 32 v }
  else
    match o with
    | 0x004 => if bit v 7 && (d.xpt.conn c).cmdErr then d.onXpt fun x => x.setConn { x.conn c with cmdErr := false } else d
    | 0x010 => d.inHeld c (Conn.onParam fun x => { x with rqpn := field v 0 24 })
    | 0x014 => d.inHeld c fun x => { x with sPsn0 := field v 0 24, sPsn := field v 0 24 }
    | 0x018 => d.inHeld c fun x => { x with rPsn := field v 0 24 }
    | 0x02C => d.inHeld c (Conn.onParam fun x => { x with rmac := withField x.rmac 0 32 v })
    | 0x030 => d.inHeld c (Conn.onParam fun x => { x with rmac := withField x.rmac 32 16 v })
    | 0x034 => d.inHeld c (Conn.onParam (PathParam.ofWord v))
    | 0x038 => d.connCmd c (field v 0 4)
    | 0x100 => d.onXpt fun x => { x with cmPort := field v 0 16 }
    | 0x104 => d.onXpt fun x => { x with helloTo := max 100 (min 60000 (field v 0 16)) }
    | 0x108 => d.onXpt fun x => { x with cqMax := field v 16 14, sqMax := field v 0 14 }
    | 0x400 =>
      d.onXpt fun x => { x with ect := bit v 31, npEn := bit v 30, rpEn := bit v 29, dec := max 1 (min 4 (field v 16 3))
                                inc := max 1 (field v 8 8), minRate := max 1 (field v 0 8) }
    | 0x404 => d.onXpt fun x => { x with incUs := max 1 (field v 16 16), cnpUs := field v 0 16 }
    | 0x500 => if bit v 0 then d.inHeldNet c fun n => { n with altArm := true } else d
    | 0x514 => d.inHeldNet c fun n => { n with altMac := withField n.altMac 0 32 v }
    | 0x518 => d.inHeldNet c fun n => { n with altMac := withField n.altMac 32 16 v }
    | _ => d

/-! `HQ`. -/

/-- `HQ_SQARB`. -/
def Sq.arb (v : Nat) (s : Sq) : Sq :=
  { s with credit := min (field v 16 16) (s.depth - 1), weight := if s.admin then s.weight else max 1 (field v 0 8) }

/-- `HQ_CQMOD`. -/
def Cq.moderation (v : Nat) (q : Cq) : Cq :=
  { q with nen := bit v 31, time := max 1 (min 1000 (field v 16 10)), count := max 1 (min 256 (field v 0 9)) }

def Drive.writeHq (p : Path) (o v : Nat) (d : Drive) : Drive :=
  let q := d.sel p 0x6000
  match o with
  | 0x024 => if bit q 15 then d else d.onSq (q % 0x4000) (Sq.arb v)
  | 0x02C => if bit q 15 then d.onCq (q % 0x4000) (Cq.moderation v) else d
  | 0x108 => if bit v 0 then d.onHq fun h => { h with hwm := d.kvx.ctxs.length } else d
  | _ => d

/-! `IDX` (R298-R300, R313, R331). -/


def Drive.writeIdx (p : Path) (o v : Nat) (d : Drive) : Drive :=
  match o with
  | 0x008 => d.onIdx (Idx.pfCfg (d.sel p 0x8000) v)
  | 0x100 =>
    let d := d.onIdx (Idx.tileCfg v d.watchPats)
    if d.idx.workQuad.isNone then d.patternMove else d
  | 0x104 => d.onIdx fun i => { i with updCap := max 1 (min 64 (field v 0 7)) }
  | 0x108 => d.onIdx fun i => { i with cfgErr := w1c v 0 i.cfgErr }
  | _ => d

/-! `CSC`. -/

def Drive.writeCsc (o v : Nat) (d : Drive) : Drive :=
  match o with
  | 0x000 => d.cscCtl (word v)
  | 0x004 => d.onCsc fun c => { c with high := bit v 0 }
  | 0x00C =>
    d.onCsc fun c => { c with dupMst := w1c v 4 c.dupMst, dupSlot := w1c v 3 c.dupSlot, voided := w1c v 2 c.voided
                              seqMm := w1c v 1 c.seqMm, syncTo := w1c v 0 c.syncTo }
  | 0x010 => d.onCsc fun c => { c with syncMs := max 1 (min 1000 (field v 0 16)) }
  | 0x100 => d.onMgmt fun m => { m with addr := field v 0 7 }
  | 0x104 => d.onMgmt fun m => { m with secReq := bit v 0, secKept := bit v 0 }
  | 0x11C => d.onMgmt fun m => { m with locate := bit v 1, ledDis := bit v 0 }
  | _ => d

/-! `MED`, `DMC`. -/

/-- `MED_SCRUBCTL.NOW` (R385). -/
def Drive.scrubNow (d : Drive) : Drive := if d.pwr.active then d.passStart else d

def Drive.writeMed (o v : Nat) (d : Drive) : Drive :=
  match o with
  | 0x13C => d.onMed fun m => { m with scrubIv := max 1 (min 90 (field v 0 7)) }
  | 0x14C => if bit v 0 then d.scrubNow else d
  | _ => d

def Drive.writeDmc (p : Path) (o v : Nat) (d : Drive) : Drive :=
  match o with
  | 0x02C => d.onDmc fun m => m.onChan (d.sel p 0xA000) fun c => { c with errVal := w1c v 31 c.errVal }
  | 0x100 => d.onDmc fun m => { m with page := max 1 (field v 0 10) }
  | 0x104 => d.onDmc fun m => { m with rtInt := max 5 (min 1440 (field v 0 16)) }
  | 0x108 =>
    let d := if bit v 1 then d.onDmc Dmc.patrolStart else d
    if bit v 0 then d.retrain (d.sel p 0xA000) true else d
  | _ => d

/-! `CRY`, `DIG`. -/

/-- The 192 staged bytes of `CRY_BLOB0` to `CRY_BLOB47` on a path. -/
def Drive.stagedBlob (p : Path) (d : Drive) : Bytes := (List.range 48).flatMap fun k => leBytes 4 (d.staged p (0xB300 + 4 * k))

def Drive.writeCry (p : Path) (o v : Nat) (d : Drive) : Drive :=
  match o with
  | 0x100 => d.onCry fun c => { c with vauth := bit v 1, xts128 := bit v 0 }
  | 0x108 => d.onCry fun c => { c with alarm := c.alarm - (c.alarm &&& v) }
  | 0x10C => if bit v 0 then d.onCry fun c => { c with katRun := true } else d
  | 0x3C0 => if bit v 0 && !d.cry.blobBusy then d.blobLoad p (d.stagedBlob p) else d
  | _ => d

def Drive.writeDig (p : Path) (o v : Nat) (d : Drive) : Drive :=
  let n := d.sel p 0xC000
  match o with
  | 0x04 => d.digCtl n (word v)
  | 0x08 => d.onDig n fun g => { g with clr := w1c v 3 g.clr, err := w1c v 2 g.err }
  | 0x0C => d.onDig n fun g => { g with wlo := v }
  | 0x10 => d.onDig n fun g => { g with whi := v }
  | 0x14 => d.digData n (word v)
  | 0x18 => d.digFinal n (word v)
  | _ => d

/-! `EVR` (R592-R596, R617). -/

/-- Changes the state of a source. -/
def Evr.onSrc (s : Nat) (f : Src → Src) (e : Evr) : Evr := { e with srcs := setKey e.srcs s (f (e.src s)) }

/-- `EVR_SRCCFG` of source `s`. -/
def Evr.srcCfg (s v : Nat) (e : Evr) : Evr :=
  if (catalogue s).isNone || s == srcWatch then e
  else
    e.onSrc s fun x =>
      { x with latch := w1c v 31 x.latch, en := bit v 30, sev := if field v 28 2 = 3 then x.sev else field v 28 2, toRec := bit v 26
               alert := bit v 25, cqe := bit v 24 }

/-- `EVR_PEND`: clears the latches of the sources from `base` that are written 1. -/
def Evr.pendClear (base v : Nat) (e : Evr) : Evr :=
  { e with srcs := e.srcs.map fun s =>
      if base ≤ s.1 && decide (s.1 < base + 32) && bit v (s.1 - base) then (s.1, { s.2 with latch := false }) else s }

def Drive.writeEvr (p : Path) (o v : Nat) (d : Drive) : Drive :=
  if 0x100 ≤ o ∧ o ≤ 0x13C then d.onEvr (Evr.pendClear (8 * (o - 0x100)) v)
  else
    match o with
    | 0x004 => d.onEvr (Evr.srcCfg (d.sel p 0xD000) v)
    | 0x210 => d.timeCmd (d.staged p 0xD208 + d.staged p 0xD20C * 2 ^ 32) (word v)
    | 0x21C => d.onClk fun c => { c with timeErr := w1c v 0 c.timeErr }
    | _ => d

/-! `UPD`. -/

def Drive.writeUpd (o v : Nat) (d : Drive) : Drive :=
  match o with
  | 0x00 => d.onUpd fun u => { u with cmdErr := w1c v 0 u.cmdErr }
  | 0x1C => d.updCmd (word v)
  | _ => d

/-! A write that has reached its island. -/

def Drive.writeBlock (p : Path) (off v : Nat) (d : Drive) : Drive :=
  let o := off % 0x1000
  match off / 0x1000 with
  | 0 => d.writeSys p o v
  | 1 => d.writeIsl p o v
  | 2 => if o < 0x100 then d.writePwr o v else d.writeBank (o - 0x100) v
  | 3 => d.writeNet p .a o v
  | 4 => d.writeNet p .b o v
  | 5 => d.writeXpt p o v
  | 6 => d.writeHq p o v
  | 8 => d.writeIdx p o v
  | 9 => d.writeMed o v
  | 0xA => d.writeDmc p o v
  | 0xB => d.writeCry p o v
  | 0xC => d.writeDig p o v
  | 0xD => d.writeEvr p o v
  | 0xE => d.writeUpd o v
  | 0xF => d.writeCsc o v
  | _ => d

/-- A write to the register at `off` takes effect: a select register, a staging register, or a register of its block. -/
def Drive.writeHere (p : Path) (off v : Nat) (d : Drive) : Drive :=
  match selectMask off with
  | some m => d.writeSel p off m v
  | none => if isStaging off then d.writeStaging p off v else d.writeBlock p off v

end Sys2Proof.Machine
end

