-- ==== Sys2Proof/Machine/Regs.lean ====
section
/-! DEFINITION. Register accesses: islands that are down, posted writes, latched reads, and the rows that are register writes
(01, 19). -/

namespace Sys2Proof.Machine

/-! Islands that are down (R12, R19, R20, R657). -/

/-- An access on a path found island `i` down. -/
def Drive.foundDown (p : Path) (i : Nat) (d : Drive) : Drive :=
  (d.onPath p fun r => { r with islDown := true, isl := i }).raise 0x006 (leBytes 1 i ++ leBytes 1 (pathCode p))

/-- The management island runs: a register access is possible at all. (log 81 DEDUCED) -/
def Drive.reachable (d : Drive) : Bool := d.islState 1 == 0

/-- An offset of the register space (R649, R656). -/
def regOffset (off : Nat) : Bool := off % 4 == 0 && decide (off ≤ 0xFFFC)

/-! Writes (R10, R20-R24). -/

/-- The access of the path to `off` gets no answer (R19). -/
def Drive.muted (p : Path) (off : Nat) (d : Drive) : Bool := (d.sys.path p).mute.contains off

/-- That access ends. -/
def Drive.unmute (p : Path) (off : Nat) (d : Drive) : Drive := d.onPath p fun r => { r with mute := r.mute.erase off }

/-- A write takes effect, or is discarded because its island is down or did not answer. -/
def Drive.writeReg (p : Path) (off : Nat) (v : Word) (d : Drive) : Drive :=
  if d.islState (regIsland off) ≠ 0 then d.foundDown p (regIsland off)
  else if d.muted p off then d.unmute p off else d.writeHere p off v.toNat

/-- The management island accepts a write: it is posted (R21). (log 79 DESIGN CHOICE) -/
def Drive.postWrite (p : Path) (off : Nat) (v : Word) (d : Drive) : Drive :=
  d.onSys fun y => { y with posted := y.posted ++ [{ path := p, off := off, val := v }] }

/-- Every posted write of a path takes effect, in issue order (R22, R23). -/
def Drive.drain (p : Path) (d : Drive) : Drive :=
  (d.sys.posted.filter fun w => w.path == p).foldl (fun d w => d.writeReg p w.off w.val)
    (d.onSys fun y => { y with posted := y.posted.filter fun w => w.path != p })

/-- Every posted write takes effect. (log 111 DESIGN CHOICE) -/
def Drive.drainAll (d : Drive) : Drive := ((d.drain .smbus).drain .admin).drain .preload

/-- A write on a path that takes effect now, after those issued before it on the path. -/
def Drive.regWrite (p : Path) (off : Nat) (v : Word) (d : Drive) : Drive :=
  if d.reachable && regOffset off then (d.drain p).writeReg p off v else d

/-! Reads (R12, R22, R331). -/

/-- What a read returns, and the path's latch after it. -/
def State.readLatched (p : Path) (off : Nat) (s : State) : Nat × Drive :=
  let latch := (s.d.sys.path p).latch
  match s.pair p off with
  | some v => (v % 2 ^ 32, s.d.onPath p fun r => { r with latch := setKey r.latch (off + 4) (v / 2 ^ 32 % 2 ^ 32) })
  | none =>
    match latch.find? fun x => x.1 == off with
    | some x => (x.2, s.d.onPath p fun r => { r with latch := r.latch.filter fun y => y.1 != off })
    | none => (s.live p off, s.d)

/-- One register read on a path, its own posted writes first. -/
def State.readReg (p : Path) (off : Nat) (s : State) : Word × State :=
  let s := { s with d := s.d.drain p }
  if s.d.islState (regIsland off) ≠ 0 then (0xFFFFFFFF, { s with d := s.d.foundDown p (regIsland off) })
  else if s.d.muted p off then (0xFFFFFFFF, { s with d := s.d.unmute p off })
  else let r := s.readLatched p off; (word r.1, { s with d := r.2 })

/-- `n` registers read from `off`. -/
def State.readRegs (p : Path) : Nat → Nat → State → List Word × State
  | _, 0, s => ([], s)
  | off, n + 1, s =>
    let r := s.readReg p off
    let rest := State.readRegs p (off + 4) n r.2
    (r.1 :: rest.1, rest.2)

/-- `n` registers of 32-bit words written from `off`: posted (R21). -/
def Drive.postAll (p : Path) (off : Nat) (words : List Nat) (d : Drive) : Drive :=
  (numbered words).foldl (fun d w => d.postWrite p (off + 4 * w.1) (word w.2)) d

/-! Rows: register writes with a row of their own. Each is a write on its path to the register that it names. -/

def execPwrCmdMode (p : Path) (v : Word) (s : State) : Host.Outcome State Fault Refusal :=
  .next { s with d := s.d.regWrite p 0x2004 v }

def execPwrCmdCap (p : Path) (v : Word) (s : State) : Host.Outcome State Fault Refusal :=
  .next { s with d := s.d.regWrite p 0x2004 v }

def execLinkRestart (p : Path) (port : Port) (v : Word) (s : State) : Host.Outcome State Fault Refusal :=
  .next { s with d := s.d.regWrite p (netBase port + 0x008) v }

def execFilterLoad (p : Path) (port : Port) (s : State) : Host.Outcome State Fault Refusal :=
  .next { s with d := s.d.regWrite p (netBase port + 0x060) 1 }

def execFilterFetch (p : Path) (port : Port) (s : State) : Host.Outcome State Fault Refusal :=
  .next { s with d := s.d.regWrite p (netBase port + 0x060) 2 }

def execMaxfrmWrite (p : Path) (port : Port) (v : Word) (s : State) : Host.Outcome State Fault Refusal :=
  .next { s with d := s.d.regWrite p (netBase port + 0x010) v }

/-- The address registers of a port, by their offset in its block. -/
def addressReg (off : Nat) : Bool := [0x01C, 0x020, 0x024, 0x028, 0x02C, 0x098, 0x09C].contains off

/-- `off` is the offset in the port's block. -/
def execAddressWrite (p : Path) (port : Port) (off : Nat) (v : Word) (s : State) : Host.Outcome State Fault Refusal :=
  .next { s with d := if addressReg off then s.d.regWrite p (netBase port + off) v else s.d }

def execWakecodeWrite (p : Path) (hi : Bool) (v : Word) (s : State) : Host.Outcome State Fault Refusal :=
  .next { s with d := s.d.regWrite p (if hi then 0x3090 else 0x308C) v }

def execConnHold (p : Path) (s : State) : Host.Outcome State Fault Refusal := .next { s with d := s.d.regWrite p 0x5038 1 }

def execConnProvision (p : Path) (s : State) : Host.Outcome State Fault Refusal := .next { s with d := s.d.regWrite p 0x5038 2 }

def execConnClose (p : Path) (s : State) : Host.Outcome State Fault Refusal := .next { s with d := s.d.regWrite p 0x5038 3 }

def execConnRelease (p : Path) (s : State) : Host.Outcome State Fault Refusal := .next { s with d := s.d.regWrite p 0x5038 4 }

def execAltPathArm (p : Path) (s : State) : Host.Outcome State Fault Refusal := .next { s with d := s.d.regWrite p 0x5500 1 }

def execHwmclr (p : Path) (s : State) : Host.Outcome State Fault Refusal := .next { s with d := s.d.regWrite p 0x6108 1 }

def execClkmstWrite (p : Path) (v : Word) (s : State) : Host.Outcome State Fault Refusal :=
  .next { s with d := s.d.regWrite p 0xF000 v }

def execCascadeEnable (p : Path) (v : Word) (s : State) : Host.Outcome State Fault Refusal :=
  .next { s with d := s.d.regWrite p 0xF000 v }

/-- ROLLNOW is written with the other fields as they stand. (log 86 DEDUCED) -/
def execRollnow (p : Path) (s : State) : Host.Outcome State Fault Refusal :=
  let c := (s.d.drain p).csc
  .next { s with d := s.d.regWrite p 0xF000 (word (bitAt 2 c.clkMst + bitAt 1 true + bitAt 0 c.en)) }

def execScrubNow (p : Path) (s : State) : Host.Outcome State Fault Refusal := .next { s with d := s.d.regWrite p 0x914C 1 }

def execSectionIsolateCmd (p : Path) (v : Word) (s : State) : Host.Outcome State Fault Refusal :=
  .next { s with d := s.d.regWrite p 0x2140 v }

def execMeasureNow (p : Path) (s : State) : Host.Outcome State Fault Refusal := .next { s with d := s.d.regWrite p 0x2118 1 }

def execStagecapWrite (p : Path) (v : Word) (s : State) : Host.Outcome State Fault Refusal :=
  .next { s with d := s.d.regWrite p 0x2100 v }

def execUpdRollback (p : Path) (v : Word) (s : State) : Host.Outcome State Fault Refusal :=
  .next { s with d := s.d.regWrite p 0xE01C v }

def execActCoreReplace (p : Path) (v : Word) (s : State) : Host.Outcome State Fault Refusal :=
  .next { s with d := s.d.regWrite p 0x1100 v }

def execActTileFence (p : Path) (v : Word) (s : State) : Host.Outcome State Fault Refusal :=
  .next { s with d := s.d.regWrite p 0x1100 v }

def execActDieRetire (p : Path) (v : Word) (s : State) : Host.Outcome State Fault Refusal :=
  .next { s with d := s.d.regWrite p 0x1100 v }

def execActDieRecalibrate (p : Path) (v : Word) (s : State) : Host.Outcome State Fault Refusal :=
  .next { s with d := s.d.regWrite p 0x1100 v }

def execActLaneRetrain (p : Path) (v : Word) (s : State) : Host.Outcome State Fault Refusal :=
  .next { s with d := s.d.regWrite p 0x1100 v }

def execIslFence (p : Path) (v : Word) (s : State) : Host.Outcome State Fault Refusal :=
  .next { s with d := s.d.regWrite p 0x1008 v }

def execIslRelease (p : Path) (v : Word) (s : State) : Host.Outcome State Fault Refusal :=
  .next { s with d := s.d.regWrite p 0x1008 v }

def execIslReset (p : Path) (v : Word) (s : State) : Host.Outcome State Fault Refusal :=
  .next { s with d := s.d.regWrite p 0x1008 v }

def execKatNow (p : Path) (s : State) : Host.Outcome State Fault Refusal := .next { s with d := s.d.regWrite p 0xB10C 1 }

def execBlobLoad (p : Path) (s : State) : Host.Outcome State Fault Refusal := .next { s with d := s.d.regWrite p 0xB3C0 1 }

def execDigStart (p : Path) (v : Word) (s : State) : Host.Outcome State Fault Refusal :=
  .next { s with d := s.d.regWrite p 0xC004 v }

def execDigPush (p : Path) (v : Word) (s : State) : Host.Outcome State Fault Refusal :=
  .next { s with d := s.d.regWrite p 0xC014 v }

def execDigLast (p : Path) (v : Word) (s : State) : Host.Outcome State Fault Refusal :=
  .next { s with d := s.d.regWrite p 0xC018 v }

def execPatrolStart (p : Path) (s : State) : Host.Outcome State Fault Refusal := .next { s with d := s.d.regWrite p 0xA108 2 }

def execDramRetrain (p : Path) (s : State) : Host.Outcome State Fault Refusal := .next { s with d := s.d.regWrite p 0xA108 1 }

def execTimeSet (p : Path) (v : Word) (s : State) : Host.Outcome State Fault Refusal :=
  .next { s with d := s.d.regWrite p 0xD210 v }

/-- R653: `off` is a select register. -/
def execSelectWrite (p : Path) (off : Nat) (v : Word) (s : State) : Host.Outcome State Fault Refusal :=
  .next { s with d := if (selectMask off).isSome then s.d.regWrite p off v else s.d }

def execPfcfgWrite (p : Path) (v : Word) (s : State) : Host.Outcome State Fault Refusal :=
  .next { s with d := s.d.regWrite p 0x8008 v }

def execTilecfgWrite (p : Path) (v : Word) (s : State) : Host.Outcome State Fault Refusal :=
  .next { s with d := s.d.regWrite p 0x8100 v }

/-- R331: `off` is a register whose partner the read latches. -/
def execHalfLatchRead (p : Path) (off : Nat) (s : State) : Host.Outcome State Fault Refusal :=
  .next (if s.d.reachable && (s.pair p off).isSome then (s.readReg p off).2 else s)

/-- The island of `off` does not answer an access of the path within 8 us (R19): it counts as down for that access. That is the oldest
write posted to `off` on the path, which is discarded, or the next access of the path to `off`, which reads all ones or is discarded.
(log 129 DESIGN CHOICE) -/
def Drive.noAnswer (p : Path) (off : Nat) (d : Drive) : Drive :=
  match d.sys.posted.find? fun w => w.path == p && w.off == off with
  | some w => (d.onSys fun y => { y with posted := y.posted.erase w }).foundDown p (regIsland off)
  | none => (d.onPath p fun r => { r with mute := r.mute ++ [off] }).foundDown p (regIsland off)

def execRegisterAccessTimeout (p : Path) (off : Nat) (s : State) : Host.Outcome State Fault Refusal :=
  .next { s with d := if s.d.reachable && regOffset off then s.d.noAnswer p off else s.d }

def execRegisterWrite (p : Path) (off : Nat) (v : Word) (s : State) : Host.Outcome State Fault Refusal :=
  .next { s with d := s.d.regWrite p off v }

/-- R553: 4 hours of life clock have passed since the last write. -/
def execConfigurationStoreWrite (s : State) : Host.Outcome State Fault Refusal :=
  let due := match s.d.upd.cfgAt with
    | some t => decide (t + 14400000000000 ≤ s.d.clk.life)
    | none => true
  .next (if due && s.d.reachable then s.storeConfig else s)

end Sys2Proof.Machine
end

