-- ==== Sys2Proof/Machine/Boot.lean ====
section
/-! DEFINITION. BOOT: the boot ROM's choice, start of the firmware, replay, preload records, the end of BOOT (10, 15). -/

namespace Sys2Proof.Machine

/-! Replay (R413-R415). -/

/-- The record's data did not survive (R407, R414): a value was not programmed whole and no power-loss flush holds it, or what lay
only in the journal buffers is among the lost. -/
def Kvx.doomed (lost : List Nat) (k : Kvx) (r : CommitRec) : Bool :=
  (!k.valsDone r && (!r.admitted || r.media || lost.contains r.serial)) || (!r.journaled && lost.contains r.serial)

/-- A cut of replay reaches the record: one of its domain serial, and for a KEYED domain one that shares a key (R223, R414). -/
def cutBy (cuts : List CommitRec) (r : CommitRec) : Bool :=
  cuts.any fun c => c.domain == r.domain && (r.strict || c.keys.meets r.keys)

/-- The commit records that replay keeps and those it drops, in ascending turn serial (R414). -/
def keepRecords (bad : CommitRec → Bool) : List CommitRec → List CommitRec → List CommitRec × List CommitRec
  | [], cuts => ([], cuts)
  | r :: rs, cuts =>
    if bad r || cutBy cuts r then keepRecords bad rs (cuts ++ [r])
    else
      let x := keepRecords bad rs cuts
      (r :: x.1, x.2)

/-- The stored state after replay: the kept records applied to the checkpoint, without the volatile cipher keys (R413, R458).
(log 73 DEDUCED) -/
def Kvx.replayed (kept : List CommitRec) (k : Kvx) : Store :=
  (kept.foldl (fun s r => s.applyAll r.serial r.effs) k.base).dropVolatile

/-- Steps 1 to 4 of R413. A sanitize that had started skips the replay of the old map (R586). (log 26 DEDUCED, 96 DEDUCED) -/
def Drive.replay (b : BootFinds) (d : Drive) : Drive :=
  let k := d.kvx
  if d.upd.sanState = 1 then
    let s := k.store.dropVolatile
    (d.onKvx fun k => { k with store := s, base := s, log := [], staged := [], window := [] }).onBank fun b => { b with dropped := 0 }
  else
    let x := keepRecords (k.doomed b.lost) k.log []
    let gone := x.2.map (·.serial)
    let d := d.onKvx fun k =>
      { k with store := k.replayed x.1
               window := k.window.filter fun w => match w.serial with
                 | some n => !gone.contains n
                 | none => false }
    d.onBank fun b => { b with dropped := min 0xFFFF x.2.length }

/-- Replay is over: what it restored is the new checkpoint. -/
def Kvx.replayDone (k : Kvx) : Kvx := { k.checkpoint with staged := [] }

/-- The index region cannot be used as a whole: every key space starts in rebuild (R327, R330). -/
def Drive.fullRebuild (d : Drive) : Drive :=
  let ids := d.kvx.store.kss.map (·.id)
  let d := d.onIdx fun i => ({ i with full := ids, rebuild := ids, lost := [], pages := [] } : Idx).readMedia d.clk.life
  ids.foldl (fun d k => d.raise 0x180 (leBytes 2 k ++ [1])) d

/-! Keys and parts of the module (R39, R42, R455, R482, R505, R579). -/

/-- Keys that the drive makes for itself, and its sanitize nonce, exist from its first BOOT on (R67, R455). (log 102 DESIGN CHOICE) -/
def Drive.ownKeys (d : Drive) : Drive :=
  let s := d.kvx.store
  if s.driveKey.isEmpty then
    let r := d.draw 192
    let b := r.1
    let keys := fun (s : Store) => { s with driveKey := b.take 32, tokCur := slice b 32 32, tokPrev := slice b 64 32, metaKey := slice b 96 64 }
    (r.2.onKvx fun k => { k with store := keys k.store, base := keys k.base }).onUpd fun u => { u with nonce := slice b 160 32 }
  else d

/-- The cores take their roles; a cluster without a passing core is fenced. The drive cause of READ-ONLY is told anew (R527). -/
def Drive.bootCores (pass : BitVec 32) (d : Drive) : Drive :=
  let r := coreRoles pass
  let dead := (List.range 4).filter fun c => !((bitsOf pass).any fun i => i / 8 == c)
  let d := d.onUpd fun u => { u with cores := r.1, spares := r.2, fencedCores := ~~~pass, fenced := dead.map clusterIsland }
  let few := decide (d.upd.working.length < 12)
  let two := decide (2 ≤ d.dmc.retired)
  let cause := d.pwr.roCause
  let stays := cause == 2 || (cause == 3 && few) || (cause == 4 && two)
  d.onPwr fun p => { p with roCause := if stays then cause else if two then 4 else if few then 3 else 0 }

/-- Known-answer tests of the cipher island and its new context export key; DRAM is trained at two speeds and runs at 6,400 MT/s. -/
def Drive.bootTests (b : BootFinds) (d : Drive) : Drive :=
  let bad := ((List.range 16).filter b.aesFail.getLsbD) ++ ((List.range 8).filter b.digFail.getLsbD).map (16 + ·)
  let d := bad.foldl (fun d n => d.katFails n) d.newExportKey
  let d := d.onCry fun c => { c with katAt := some d.clk.life, p384Bad := !b.p384Ok }
  d.onDmc fun m => { m with chans := m.chans.map fun c => if c.state = 5 then c else
    { c with stored := 5, speed := 3, trains := wrap32 (c.trains + 2), trainedAt := d.clk.life } }

/-- Tiles that fail their self-test stay out of service; pattern work moves when a pattern tile is among them (R313, R579). -/
def Drive.bootTiles (fails : BitVec 16) (d : Drive) : Drive :=
  ((List.range 16).filter fails.getLsbD).foldl (fun d t =>
    let d := (d.onIdx fun i => i.onTiles (· == t) fun x => { x with fenced := true }).raise 0x182 (leBytes 1 t)
    if d.idx.patternQuad (t / 4) then d.patternMove else d) d

/-! Preload records (R556-R558). -/

/-- One record, on the preload path. -/
def State.preloadOne (r : Nat × Nat × Nat) (s : State) : State :=
  let mask := word r.2.1
  let val := word r.2.2
  if r.2.1 = 0xFFFFFFFF then { s with d := s.d.regWrite .preload r.1 val }
  else
    let x := s.readReg .preload r.1
    { x.2 with d := x.2.d.regWrite .preload r.1 ((x.1 &&& ~~~mask) ||| (val &&& mask)) }

/-- The records of a stage in area order, the path's own copies at their reset values before the first (R651). -/
def State.preloadAll (l : List (Nat × Nat × Nat)) (s : State) : State :=
  l.foldl (fun s r => s.preloadOne r) { s with d := s.d.onPath .preload fun _ => .reset }

/-- Stage 0; the records of stage 1 wait for the end of replay. -/
def State.preloadFirst (s : State) : State :=
  let p := s.nv.preload
  let of := fun (n : Nat) => (p.1.filter fun r => r.stage == n).map fun r => (r.off, r.mask, r.val)
  let d := s.d.onUpd fun u => { u with late := of 1 }
  ({ s with d := if p.2.1 ≠ 0 ∨ p.2.2 then d.raise 0x00A (leBytes 2 p.2.1 ++ leBytes 1 (bitAt 0 p.2.2)) else d } : State).preloadAll (of 0)

/-! BOOT (R547-R549, R560, R563, R574). -/

/-- What the firmware tells the recorder first: fallbacks of the boot ROM, an image in trial, lost configuration and calibration.
(log 98 DEDUCED, 101 DEDUCED) -/
def Drive.bootEvents (nv : Nv) (slot : Nat) (calOk : Bool) (d : Drive) : Drive :=
  let d := d.upd.fallen.foldl (fun d x => d.raise 0x1F3 (leBytes 8 x.1 ++ leBytes 1 x.2)) d
  let d := if nv.boot.trial then d.raise 0x1F2 (leBytes 8 (nv.slotRev slot)) else d
  let d := if nv.anyConfig (nv.format slot) then d else d.raise 0x008 []
  if calOk then d else d.raise 0x009 []

/-- The installed time could not be restored (R381): what it counts on from is open. (log 156 DESIGN CHOICE) -/
def Drive.loseTime (d : Drive) : Drive :=
  let x := d.drawNat
  (x.2.onClk fun c => { c with installed := x.1 % 2 ^ 64 }).onUpd fun u => { u with timeLost := true }

/-- The firmware of a verified image runs: steps 7 to 11 of R548. (log 100 DEDUCED) -/
def State.bootFirmware (slot : Nat) (b : BootFinds) (s : State) : State :=
  let boot := s.nv.boot
  let flags := bitAt 0 (!s.nv.anyConfig (s.nv.format slot)) + bitAt 1 (!s.d.upd.fallen.isEmpty)
  let d := s.d.onUpd fun u =>
    { u with stage := if boot.trial then 4 else 0, trialEnd := if boot.trial then some (boot.actLife + trialLife) else none
             fresh := true, bootRun := some flags }
  let d := (d.bootEvents s.nv slot b.calOk).onUpd fun u => { u with fallen := [] }
  let d := (((d.bootCores b.coresPass).bootTests b).ownKeys).onMgmt fun m => { m with secReq := m.secKept }
  let d := if d.bank.torn then d.raise 0x016 [] else d
  let d := (d.replay b).bootTiles b.tilesFail
  let d := if b.indexLost then d.fullRebuild else d
  let d := if b.timeOk then d else d.loseTime
  let s := ({ s with d := d } : State).preloadFirst
  { s with d := s.d.portsUp }

/-- BOOT from the boot ROM to the start of replay, or RECOVERY. -/
def State.boot (b : BootFinds) (s : State) : State :=
  if s.d.pwr.cur = 1 && s.d.upd.bootRun.isNone then
    let r := s.nv.bootRom
    let d := s.d.onUpd fun u => { u with falls := wrap32 (u.falls + r.2.1.length), fallen := u.fallen ++ r.2.1 }
    match r.1 with
    | none => { s with nv := r.2.2, d := d.enterMode 2 }
    | some slot => ({ s with nv := r.2.2, d := d } : State).bootFirmware slot b
  else s

/-- The mode in which BOOT ends (R535). -/
def Pwr.bootEnd (p : Pwr) : Nat := if bit p.why 0 then 9 else if p.roCause ≥ 2 then 0xB else p.bootMode

/-- BOOT ends in mode `m`: SCRUB keeps PWR_REQ# low and the ports without power (R535, R536). (log 103 DEDUCED) -/
def Drive.bootMode (m : Nat) (d : Drive) : Drive :=
  let d :=
    if m = 9 then { d.passHere with portA := d.portA.kept, portB := d.portB.kept }
    else d.onPwr fun p => { p with req := false, why := 0, idleAt := d.clk.life }
  let d := (d.goMode m).tellReadOnly m
  if d.scrubDue d.scrubDays || d.upd.timeLost then (d.onUpd fun u => { u with timeLost := false }).passStart else d

/-- Replay is done after `ms` milliseconds: stage 1 records, events, the end of BOOT (R413 step 5, R416, R548, R558). -/
def State.bootEnds (ms : Nat) (s : State) : State :=
  match s.d.upd.bootRun with
  | none => s
  | some flags =>
    if s.d.pwr.cur = 1 then
      let d := (s.d.onKvx Kvx.replayDone).onBank fun b => { b with replayMs := min 0xFFFF ms, torn := false }
      let d := d.raise 0x017 (leBytes 2 d.bank.dropped ++ leBytes 2 d.bank.replayMs)
      let s := ({ s with d := d } : State).preloadAll d.upd.late
      let m := s.d.pwr.bootEnd
      let d := (s.d.onUpd fun u => { u with late := [] }).bootMode m
      { s with d := d.raise 0x000 (leBytes 1 m ++ leBytes 1 flags ++ leBytes 8 (s.nv.runRev d.upd.stage)) }
    else s

/-! Rows. -/

def execBoot (b : BootFinds) (s : State) : Host.Outcome State Fault Refusal := .next (s.boot b)

def execReplayDone (ms : Nat) (s : State) : Host.Outcome State Fault Refusal := .next (s.bootEnds ms)

end Sys2Proof.Machine
end

