-- ==== Sys2Proof/Machine/Admin.lean ====
section
/-! DEFINITION. Turns of the admin commands: key spaces, queues, ABORT, register access, log pages, IDENTIFY, keys (02, 03, 04, 07,
12). -/

namespace Sys2Proof.Machine

/-- A command returns a structure: as much of `data` as its buffer holds is written, and the command settles when the last byte is
acknowledged (R163, R222). -/
def Drive.returns (c : Ctx) (res : Res) (data : Bytes) (d : Drive) : Drive :=
  if data.isEmpty || c.e.vlen == 0 then d.refuse c res
  else (d.onCtx c.sq c.ord fun x => { x with turned := true, res := res }).output c 0 (data.take c.e.vlen)

/-! Key spaces (R44-R52, R74-R81, R165). -/

/-- The event of a key space created (0) or deleted (1). -/
def Drive.ksEvent (id kind serial : Nat) (d : Drive) : Drive := d.raise 0x098 (leBytes 2 id ++ leBytes 1 kind ++ leBytes 4 serial)

/-- Bytes of a media key by cipher strength (R455, R467). -/
def mediaKeyLen (xts128 : Bool) : Nat := if xts128 then 32 else 64

/-- The turn of KSCREATE. (log 20 DEDUCED) -/
def Drive.turnKscreate (c : Ctx) (d : Drive) : Drive :=
  match parseDescriptor c.e.ksId true (c.value 0) with
  | none => d.refuse c descriptorBad
  | some (k, _) =>
    let s := d.kvx.store
    match s.slotKey k.slot with
    | none => d.refuse c (slotMissing 10 k.slot)
    | some key =>
      if (s.ks? k.id).isSome then d.refuse c (.failed stExists 10)
      else if s.created ≥ 0xFFFFFFFF then d.refuse c (.conflict 10 5 1)
      else
        let n := mediaKeyLen d.cry.xts128
        let serial := s.created + 1
        let mk := (d.draw n).1
        let k' := { k with acl := withCreator c.tenant k.acl, serial := serial, mediaKey := some mk, wrapped := keyWrap key mk
                           xts128 := d.cry.xts128 }
        d.commitPlain c (fun _ => [.ksCreate k']) .none fun t d =>
          ({ d with free := d.free + n }.ksEvent k.id 0 serial).settle c { b := leBytes 4 serial } 0 (some t)

/-- The fields of `new` that a modify mask selects (R48): with the slot, the media key is wrapped anew under its cipher key `key` (R75). -/
def KeySpace.modified (old new : KeySpace) (mask : Nat) (key : Bytes) : KeySpace :=
  { old with
    slot := if bit mask 0 then new.slot else old.slot
    wrapped := if bit mask 0 then keyWrap key (old.mediaKey.getD []) else old.wrapped
    byteQuota := if bit mask 1 then new.byteQuota else old.byteQuota, keyQuota := if bit mask 2 then new.keyQuota else old.keyQuota
    acl := if bit mask 3 then new.acl else old.acl, label := if bit mask 4 then new.label else old.label }

/-- Ends the watches of a key space that `p` names, with their ENDED events (R207). -/
def Drive.endWatches (p : Watch → Bool) (d : Drive) : Drive :=
  (d.kvx.watches.filter p).foldl (fun d w => d.endWatch w.id true) d.drainChecks

/-- The turn of KSMODIFY (R48, R49, R75, R76); its checks of the descriptor were made at entry. One that had entered before a KSDELETE goes on
(R50). (log 20 DEDUCED) -/
def Drive.turnKsmodify (c : Ctx) (d : Drive) : Drive :=
  match parseDescriptor c.e.ksId false (c.value 0), d.kvx.store.ks? c.e.ksId with
  | none, _ => d.refuse c descriptorBad
  | _, none => d.refuse c (.failed stDenied 10)
  | some (new, mask), some old =>
    let s := d.kvx.store
    let newKey := s.slotKey new.slot
    match old.differs new with
    | some off => d.refuse c (.conflict 10 3 off)
    | none =>
      if bit mask 0 && old.mediaKey.isNone then d.refuse c (slotMissing 10 old.slot)
      else if bit mask 0 && newKey.isNone then d.refuse c (slotMissing 10 new.slot)
      else
        let k := old.modified new mask (newKey.getD [])
        d.commitPlain c (fun _ => [.ksModify k]) .none fun t d =>
          (d.endWatches fun w => w.ks == k.id && !bit (k.rights w.tenant) 0).settle c {} 0 (some t)

/-- The commands that have entered on a key space and have not completed, but for those behind `c` on its own SQ (R50). -/
def Drive.enteredOn (c : Ctx) (d : Drive) : List (Nat × Nat) :=
  (d.kvx.ctxs.filter fun x => x.started && !(x.sq == c.sq && decide (c.ord ≤ x.ord)) && (x.named.any fun n => n.2 == c.e.ksId)
    && !d.cqeDone x).map fun x => (x.sq, x.ord)

/-- A command that had entered on the key space before its KSDELETE has not completed (R50). -/
def Drive.ksBusy (l : List (Nat × Nat)) (d : Drive) : Bool := d.kvx.ctxs.any fun x => l.contains (x.sq, x.ord) && !d.cqeDone x

/-- The key space is covered by an open snapshot (R51). -/
def Store.covered (id : Nat) (s : Store) : Bool := s.snaps.any fun n => n.kss.contains id

/-- The turn of KSDELETE (R50-R52): the key space is DELETING from the first time on, and the commit waits for the commands already
entered on it. (log 21 DEDUCED) -/
def Drive.turnKsdelete (c : Ctx) (d : Drive) : Drive :=
  let id := c.e.ksId
  match d.kvx.store.ks? id with
  | none => d.refuse c (.failed stDenied 10)
  | some k =>
    if !c.ran && d.kvx.deleting.contains id then d.refuse c (.conflict 10 2 5)
    else if d.kvx.store.covered id then d.refuse c (.conflict 10 2 6)
    else
      let marks := if c.ran then c.marks else d.enteredOn c
      let d := if c.ran then d
        else (d.onKvx fun k => { k with deleting := k.deleting ++ [id] }).onCtx c.sq c.ord fun x => { x with ran := true, marks := marks }
      if d.ksBusy marks then d
      else
        let building := d.idx.rebuild.contains id
        let full := d.idx.full.contains id
        d.commitPlain c (fun _ => [.ksDelete id]) .none fun t d =>
          -- R330: a rebuild of the key space ends with it
          let d := if building then d.raise 0x181 (leBytes 2 id ++ leBytes 1 (bitAt 0 full)) else d
          (((d.undelete id).endWatches fun w => w.ks == id).ksEvent id 1 k.serial).settle c {} 0 (some t)

/-! Queues (R102-R107). -/

/-- The connection holds its limit of a kind of queue; 0 is no limit (R105, R133). -/
def atLimit (n max : Nat) : Bool := max != 0 && decide (max ≤ n)

/-- `QUOTA` of QCREATE. -/
def queueQuota (reason : Nat) : Res := .failed stQuota 10 (leBytes 2 reason)

/-- The turn of QCREATE. The bound CQ may have gone since the check of stage 2. -/
def Drive.turnQcreate (c : Ctx) (d : Drive) : Drive :=
  let e := c.e
  let addr := e.operand.toNat
  let depth := e.c 0x74 4
  if bit (e.c 0x7A 1) 0 then
    if atLimit (d.hq.cqs.filter fun q => q.conn == c.conn).length d.xpt.cqMax then d.refuse c (queueQuota 1)
    else
      match d.hq.freeCq with
      | none => d.refuse c (queueQuota 2)
      | some id =>
        let d := d.newCq id c.conn false addr (e.c 0x70 4) depth (e.c 0x7E 2) (e.c 0x7C 2)
        let d := if bit (e.c 0x7A 1) 2 then d.onConn c.conn fun x => { x with eventCq := id } else d
        d.refuse c { b := leBytes 2 id }
  else
    if !d.namesOwn c.conn c.op e then d.refuse c (.badField 10 0x78)
    else if atLimit (d.hq.sqs.filter fun q => q.conn == c.conn).length d.xpt.sqMax then d.refuse c (queueQuota 1)
    else
      match d.hq.freeSq with
      | none => d.refuse c (queueQuota 2)
      | some id =>
        (d.newSq id c.conn false (bit (e.c 0x7A 1) 1) (e.c 0x78 2) addr (e.c 0x70 4) depth (e.c 0x7B 1) (e.c 0x7C 2)).refuse c
          { b := leBytes 2 id }

/-- A queue that QDELETE may no longer name at its turn. -/
def queueBad : Res := .badField 10 0x70

/-- Every fetched command of an SQ has completed, and the record of a freeze is written. (log 28 DEDUCED) -/
def Drive.sqDrained (s : Sq) (d : Drive) : Bool :=
  (d.kvx.ctxs.all fun x => x.sq != s.id || d.cqeDone x) && (match s.freeze with
    | some f => f.recSeq.isSome
    | none => true)

/-- Deletes an SQ with what is left of its commands. -/
def Drive.dropSq (s : Sq) (d : Drive) : Drive :=
  let d := if s.freeze.isSome then d.endFreeze s.id none 0 else d
  (d.onHq fun h => { h with sqs := h.sqs.filter fun q => q.id != s.id }).onKvx
    fun k => { k with ctxs := k.ctxs.filter fun x => x.sq != s.id }

/-- The turn of QDELETE (R106, R107). An SQ stops being fetched at once and goes when its fetched commands have completed. -/
def Drive.turnQdelete (c : Ctx) (d : Drive) : Drive :=
  let id := c.e.c 0x70 2
  if bit (c.e.c 0x72 1) 0 then
    match d.cq? id with
    | none => d.refuse c queueBad
    | some q =>
      if q.admin || q.conn != c.conn then d.refuse c queueBad
      else if d.hq.sqs.any fun s => s.cq == id then d.refuse c (.conflict 10 6 1)
      else
        ((d.onHq fun h => { h with cqs := h.cqs.filter fun x => x.id != id }).onConn c.conn
          fun x => if x.eventCq == id then { x with eventCq := x.adminCq } else x).refuse c {}
  else
    match d.sq? id with
    | none => d.refuse c queueBad
    | some s =>
      if s.admin || s.conn != c.conn then d.refuse c queueBad
      else
        let d := d.onSq id fun s => { s with closing := true }
        if d.sqDrained s then ((d.dropSq s).refuse c { b := leBytes 4 (s.tail - s.fetched) }).wake else d

/-- Ends the freeze of SQ `s` and lets it fetch from absolute position `head` on. (log 29 DEDUCED) -/
def Drive.restart (c : Ctx) (s : Sq) (f : Freeze) (disc : Bool) (head : Nat) (d : Drive) : Drive :=
  let d := (d.endFreeze s.id (some disc) (head % s.depth)).onSq s.id fun s => { s with head := head, fetched := head }
  (d.refuse c { b := leBytes 2 (head % s.depth) ++ leBytes 2 0 ++ leBytes 4 (head - f.freezeAbs) ++ leBytes 8 (f.recSeq.getD 0) }).wake

/-- The turn of QRESTART (R266, R273-R278). -/
def Drive.turnQrestart (c : Ctx) (d : Drive) : Drive :=
  let disc := bit (c.e.c 0x72 1) 0
  match d.sq? (c.e.c 0x70 2) with
  | none => d.refuse c (.badField 10 0x70)
  | some s =>
    if s.conn ≠ c.conn then d.refuse c (.badField 10 0x70)
    else
      match s.freeze with
      | none => d.refuse c (.conflict 10 6 2)
      | some f =>
        if f.recSeq.isNone then d
        else if s.admin then
          ((d.endFreeze s.id (some disc) (s.head % s.depth)).refuse c
            { b := leBytes 2 (s.head % s.depth) ++ leBytes 6 0 ++ leBytes 8 (f.recSeq.getD 0) }).wake
        else if disc then d.restart c s f true s.tail
        else
          let idx := c.e.c 0x74 2
          if idx ≥ s.depth ∨ ringDist s.depth f.failAbs idx > (s.tail - f.failAbs) % s.depth then d.refuse c (.badField 10 0x74)
          else d.restart c s f false (s.tail - ringDist s.depth idx (s.tail % s.depth))

/-! ABORT (R166, R250-R252). -/

/-- The command that an ABORT names: the earliest outstanding one with the tag that was not refused under R110. -/
def Drive.target (q tag : Nat) (d : Drive) : Option Ctx :=
  d.kvx.ctxs.find? fun x => x.sq == q && x.arrived && !x.dup && x.e.tag.toNat == tag

/-- The turn of ABORT. (log 27 DEDUCED) -/
def Drive.turnAbort (c : Ctx) (d : Drive) : Drive :=
  let q := c.e.c 0x70 2
  let tag := c.e.c 0x72 2
  match d.sq? q with
  | none => d.refuse c (.badField 10 0x70)
  | some s =>
    if s.conn ≠ c.conn then d.refuse c (.badField 10 0x70)
    else if q = c.sq ∧ tag = c.e.tag.toNat then d.refuse c (.badField 10 0x72)
    else
      match d.target q tag with
      | none => d.refuse c { b := leBytes 2 stTooLate }
      | some x =>
        if x.turned || x.settled then d.refuse c { b := leBytes 2 stTooLate }
        else
          let d := (d.onCtx x.sq x.ord fun y => { y with marked := some (c.e.tag.toNat, c.sq), reads := y.reads.filter (·.issued) }).refuse c
            { b := leBytes 2 stAborted }
          match d.ctx? x.sq x.ord with
          | some y => if y.endsAtOnce then d.settle y y.endedRes 0 none else d
          | none => d

/-! Registers (R167, R168). -/

/-- The turn of REG_READ. -/
def State.turnRegRead (c : Ctx) (s : State) : State :=
  let n := c.e.c 0x72 2
  let r := s.readRegs .admin (c.e.c 0x70 2) n
  let data := r.1.flatMap fun w => leBytes 4 w.toNat
  { r.2 with d := r.2.d.returns c { b := slice data 0 4, len := 4 * n } data }

/-- The turn of REG_WRITE: its writes are accepted (R21). -/
def Drive.turnRegWrite (c : Ctx) (d : Drive) : Drive :=
  let v := c.value 0
  (d.postAll .admin (c.e.c 0x70 2) ((List.range (c.e.c 0x72 2)).map fun i => le v (4 * i) 4)).refuse c {}

/-! Log pages (R171, R270-R272, R384). -/

/-- Page 1 for a connection. -/
def Drive.page1 (conn filter : Nat) (d : Drive) : Bytes :=
  match d.conn? conn with
  | none => leBytes 16 0
  | some x =>
    let l := x.errs.filter fun r => filter == 0xFFFF || r.sq == filter
    leBytes 4 l.length ++ leBytes 4 0 ++ leBytes 8 x.errSeq ++ l.flatMap (ErrRec.bytes conn)

/-- A die record of page 4. -/
def Drive.dieRecord (i : Nat) (d : Drive) : Bytes :=
  let m := d.med
  let x := m.die i
  let w := m.dieWear i
  padTo 64 (leBytes 1 (i / 16) ++ leBytes 1 (i % 16) ++ leBytes 1 x.state ++ leBytes 1 x.pos ++ leBytes 2 x.retBlk ++ leBytes 2 w.1 ++ leBytes 2 w.2
    ++ leBytes 1 (m.entry i) ++ leBytes 1 0 ++ leBytes 4 (min 0xFFFFFFFF (d.calHours i))
    ++ ((List.range 5).flatMap fun k => leBytes 4 (x.lad.getD k 0)) ++ leBytes 4 x.pgmF ++ leBytes 4 x.ersF)

/-- Mean and highest wear of all blocks, in tenths. -/
def Med.wearAll (m : Med) : Nat × Nat :=
  (sumBy (fun (x : Nat × Block) => x.2.wear) m.blocks / 1966080, (m.blocks.map (·.2.wear)).foldl max 0)

/-- Page 4. (log 46 DEDUCED) -/
def Drive.page4 (d : Drive) : Bytes :=
  let m := d.med
  let lost := match m.chLost with
    | some k => 0x80 + k % 32
    | none => 0
  padTo 64 (leBytes 2 512 ++ leBytes 1 m.spares ++ leBytes 1 lost ++ leBytes 2 m.vacancies
      ++ leBytes 1 (bitAt 0 m.pacing + bitAt 1 (d.pwr.roCause == 2)) ++ leBytes 1 0 ++ leBytes 8 m.capacity ++ leBytes 8 d.freeSpace
      ++ leBytes 8 m.hostW ++ leBytes 8 (writeCredit d.clk.installed) ++ leBytes 8 d.clk.installed ++ leBytes 4 m.margin
      ++ leBytes 2 m.freeFrames ++ leBytes 2 m.frames ++ leBytes 2 m.wearAll.1 ++ leBytes 2 m.wearAll.2)
    ++ (List.range 512).flatMap fun i => d.dieRecord i

/-- Page 5. -/
def Drive.page5 (d : Drive) : Bytes :=
  let m := d.med
  padTo 64 (leBytes 1 d.scrubState ++ leBytes 1 d.scrubPct ++ leBytes 2 m.scrubIv ++ leBytes 4 m.defer ++ leBytes 8 m.lastPass ++ leBytes 8 m.passWall
    ++ leBytes 8 (m.lastPass + 86400 * d.scrubDays) ++ leBytes 4 m.passes ++ leBytes 4 m.refLast ++ leBytes 8 m.refLife ++ leBytes 4 m.deferLife)

/-- The full size of the page a LOGREAD names and its bytes from an offset on, as many as are asked for. -/
def State.logPage (c : Ctx) (off n : Nat) (s : State) : Nat × Bytes :=
  let area := c.e.c 0x72 2
  let whole := fun (b : Bytes) => (b.length, (b.drop off).take n)
  match c.e.c 0x70 1 with
  | 1 => whole (s.d.page1 c.conn area)
  | 2 =>
    let size := 64 + 64 * areaSlots area
    (size, s.recorderPage area off (min n (size - off)))
  | 3 => whole s.d.upd.page3
  | 4 => whole s.d.page4
  | 5 => whole s.d.page5
  | 6 => whole s.page6
  | 7 => whole (s.d.upd.page7 s.d.clk.life)
  | _ => whole s.d.upd.page8

/-- The turn of LOGREAD. An offset beyond the page reports the page's full size too. (log 112 DESIGN CHOICE) -/
def State.turnLogread (c : Ctx) (s : State) : State :=
  let off := c.e.c 0x74 8
  let p := s.logPage c off c.e.vlen
  { s with d := if p.1 ≤ off then s.d.refuse c (.failed stRange 10 [] p.1) else s.d.returns c { len := p.1 } p.2 }

/-! IDENTIFY (R172, R173). -/

/-- The descriptor of a key space with its status fields and its access list (R46). -/
def Drive.descriptor (k : KeySpace) (d : Drive) : Bytes :=
  let s := d.kvx.store
  padTo 128 (leBytes 2 k.id ++ leBytes 1 (if k.index == .hashed then 0 else 1) ++ leBytes 1 (if k.vclass == .mutable then 0 else 1)
      ++ leBytes 1 (if k.retention == .standard then 0 else 1) ++ leBytes 1 0 ++ leBytes 2 k.slot ++ leBytes 8 k.byteQuota
      ++ leBytes 8 k.keyQuota ++ leBytes 2 k.acl.length ++ leBytes 6 0 ++ padTo 32 k.label ++ leBytes 8 (s.bytesUsed k.id)
      ++ leBytes 8 (s.keysUsed k.id) ++ leBytes 8 (s.heldBytes k.id) ++ leBytes 8 k.hwm ++ leBytes 4 k.serial
      ++ leBytes 1 (bitAt 0 (d.kvx.deleting.contains k.id)))
    ++ k.acl.flatMap fun a => leBytes 4 a.tenant ++ leBytes 1 a.rights ++ leBytes 3 0

/-- The drive identity structure. (log 45 DEDUCED) -/
def State.identity (s : State) : Bytes :=
  let d := s.d
  padTo 4096 (leBytes 8 Config.identity ++ asciiPad 32 (ascii "Lemord Microsystems") ++ asciiPad 16 (ascii "CRK72-Q128")
    ++ asciiPad 16 Config.serialNumber ++ leBytes 8 (s.nv.runRev d.upd.stage) ++ leBytes 2 1 ++ leBytes 2 0 ++ leBytes 4 4096
    ++ leBytes 4 16384 ++ leBytes 4 16384 ++ leBytes 4 65536 ++ leBytes 2 4096 ++ leBytes 2 1024 ++ leBytes 8 0xFFFFFFFF ++ leBytes 2 256
    ++ leBytes 2 256 ++ leBytes 4 0x10000000 ++ leBytes 8 d.med.capacity ++ leBytes 8 d.freeSpace ++ leBytes 8 d.med.hostW
    ++ leBytes 8 (80 * pib) ++ leBytes 1 d.pwr.cur ++ leBytes 1 d.pwr.capSel ++ leBytes 1 d.upd.working.length ++ leBytes 1 0
    ++ leBytes 4 d.kvx.store.kss.length ++ leBytes 8 d.clk.life ++ leBytes 8 d.clk.wallTime ++ leBytes 2 s.nv.fuses
    ++ leBytes 1 d.kvx.store.epoch ++ leBytes 1 0 ++ leBytes 4 d.kvx.store.tenants.length)

/-- The structure that a selector names, none when its key space is gone. -/
def State.identifyData (c : Ctx) (s : State) : Option Bytes :=
  let d := s.d
  let st := d.kvx.store
  match c.e.c 0x70 1 with
  | 0 => some s.identity
  | 1 =>
    (match st.ks? c.e.ksId with
     | some k => some (d.descriptor k)
     | none => none)
  | 2 =>
    let l := st.kss.filter fun k => d.isAdmin c.tenant || k.rights c.tenant != 0
    some (leBytes 4 l.length ++ l.flatMap fun k => leBytes 2 k.id)
  | _ =>
    let portB := match d.conn? c.conn with
      | some x => x.path.portB
      | none => false
    some (leBytes 4 c.tenant ++ leBytes 1 (bitAt 0 (d.isAdmin c.tenant)) ++ leBytes 1 (bitAt 0 portB) ++ leBytes 2 c.conn ++ leBytes 8 0)

/-- The turn of IDENTIFY. One whose key space has gone since its entry answers as one that names none. (log 21 DEDUCED) -/
def State.turnIdentify (c : Ctx) (s : State) : State :=
  { s with d :=
    match s.identifyData c with
    | none => s.d.refuse c (.failed stDenied 10)
    | some b => s.d.returns c { len := b.length } b }

/-! Keys (R67, R77, R169, R170, R460-R465). -/

/-- The turn of a blob KEYLOAD, before the blob: what refuses it. -/
def Drive.keyloadBefore (c : Ctx) (d : Drive) : Option Res :=
  if c.e.c 0x70 1 = 0 then (if (d.kvx.store.slotKey (c.e.c 0x72 2)).isSome then some (.conflict 10 7 1) else none)
  else d.kvx.store.tenantFault (c.e.c 0x74 4) (c.e.c 0x78 1 == 1)

/-- The blob carries what the command's fields say (R460). -/
def blobFits (e : Sqe) (b : Bytes) : Bool :=
  byteAt b 1 == e.c 0x70 1 && (if e.c 0x70 1 = 0 then le b 2 2 == e.c 0x72 2 else le b 4 4 == e.c 0x74 4 && byteAt b 8 == e.c 0x78 1)

/-- The cipher key of slot `n` has been loaded: LIVE key spaces whose media key it does not unwrap raise an event each (R463). -/
def Drive.slotLoaded (n : Nat) (d : Drive) : Drive :=
  (d.kvx.store.kss.filter fun k => k.slot == n && k.mediaKey.isNone && !d.kvx.deleting.contains k.id).foldl (fun d k => d.raise 0x1C4 (leBytes 2 n ++ leBytes 2 k.id)) d

/-- The turn of KEYLOAD kinds 0 and 1. -/
def Drive.turnBlob (c : Ctx) (d : Drive) : Drive :=
  let b := c.value 0
  let kind := c.e.c 0x70 1
  match d.keyloadBefore c with
  | some r => d.refuse c r
  | none =>
    if d.cry.p384Bad || d.noCore true true then let r := d.internal; r.2.refuse c r.1
    else
      match d.openBlob (blobFits c.e b) b with
      | .error e => (d.blobFails e kind).refuse c (blobRes e)
      | .ok key =>
        if kind = 0 then
          let n := c.e.c 0x72 2
          d.commitPlain c (fun _ => [.slotLoad { slot := n, key := key, persistent := bit (byteAt b 9) 0 } d.kvx.deleting]) .none fun t d =>
            ((d.takeSerial b).slotLoaded n).settle c {} 0 (some t)
        else
          let id := c.e.c 0x74 4
          let had := (d.kvx.store.tenant? id).isSome
          d.commitPlain c (fun _ => [.tenantSet { id := id, key := key, admin := c.e.c 0x78 1 == 1 }]) .none fun t d =>
            ((d.takeSerial b).tenantEvent id had).settle c {} 0 (some t)

/-- The turn of KEYLOAD kind 2: a new token key (R67). -/
def Drive.turnRotate (c : Ctx) (d : Drive) : Drive :=
  d.commitPlain c (fun _ => [.tokenRotate (d.draw 32).1]) .none fun t d =>
    { d with free := d.free + 32 }.settle c { b := leBytes 1 d.kvx.store.epoch } 0 (some t)

/-- The turn of KEYLOAD. -/
def Drive.turnKeyload (c : Ctx) (d : Drive) : Drive := if c.e.c 0x70 1 = 2 then d.turnRotate c else d.turnBlob c

/-- The turn of KEYDROP. -/
def Drive.turnKeydrop (c : Ctx) (d : Drive) : Drive :=
  let s := d.kvx.store
  if c.e.c 0x70 1 = 0 then
    let n := c.e.c 0x72 2
    if (s.slotKey n).isNone then d.refuse c (.failed stNotFound 10)
    else d.commitPlain c (fun _ => [.slotDrop n]) .none fun t d => d.settle c {} 0 (some t)
  else
    let id := c.e.c 0x74 4
    match s.tenant? id with
    | none => d.refuse c (.failed stNotFound 10)
    | some x =>
      if x.admin && !s.otherAdmin id then d.refuse c (.conflict 10 7 2)
      else
        d.commitPlain c (fun _ => [.tenantDrop id]) .none fun t d =>
          let d := (d.settle c {} 0 (some t)).raise 0x099 (leBytes 4 id ++ [Config.tenantKind 2])
          (d.xpt.conns.filter fun y => y.tenant == id && y.state == .ready).foldl (fun d y => d.endConn y.idx 4) d

/-! The turn of an admin command. -/

/-- An admin command that changes stored state is checked for the mode and a running SANITIZE again (R528, R585). -/
def Drive.adminFault (c : Ctx) (d : Drive) : Option Res := (d.modeFault c.op 10).or (d.sanitizeFault c.op 10)


def State.turnAdmin (c : Ctx) (s : State) : State :=
  match s.d.adminFault c with
  | some r => { s with d := s.d.refuse c r }
  | none =>
    match c.op with
    | 0x40 => { s with d := s.d.turnKscreate c }
    | 0x41 => { s with d := s.d.turnKsdelete c }
    | 0x42 => { s with d := s.d.turnKsmodify c }
    | 0x43 => { s with d := s.d.turnQcreate c }
    | 0x44 => { s with d := s.d.turnQdelete c }
    | 0x45 => { s with d := s.d.turnQrestart c }
    | 0x46 => { s with d := s.d.turnAbort c }
    | 0x47 => s.turnRegRead c
    | 0x48 => { s with d := s.d.turnRegWrite c }
    | 0x49 => s.turnLogread c
    | 0x4A => { s with d := s.d.turnEvfreeze c }
    | 0x4B => { s with d := s.d.turnEvthaw c }
    | 0x4C => { s with d := s.d.turnKeyload c }
    | 0x4D => { s with d := s.d.turnKeydrop c }
    | 0x4E => { s with d := s.d.turnSetmode c }
    | 0x4F => { s with d := s.d.turnSelftest c }
    | 0x50 => s.turnDownload c
    | 0x51 => s.turnVerify c
    | 0x52 => s.turnActivate c
    | 0x53 => s.turnConfirm c
    | 0x54 => s.turnSanitize c
    | 0x55 => s.turnIdentify c
    | _ => s

end Sys2Proof.Machine
end

