-- ==== Sys2Proof/Machine/Pipe.lean ====
section
/-! DEFINITION. The turn of any command, and the rows of the command pipeline (03, 06, 07, 10). -/

namespace Sys2Proof.Machine

/-! The turn (R220-R225, R483, R525). -/


/-- A data command that needs a core of a kind of which none works (R483). -/
def Drive.coreless (c : Ctx) (d : Drive) : Bool :=
  d.noCore c.storesBytes (c.wantsDigest || c.op == 0x08 || d.tokenOp c)

/-- A read that has found bytes to return needs a cipher core for them: with none it ends here. -/
def Drive.readCoreless (c : Ctx) (d : Drive) : Drive :=
  match d.ctx? c.sq c.ord with
  | none => d
  | some x =>
    if returnsValue x.op && !x.settled && !x.data.isEmpty && d.noCore true false then
      let r := (d.findOff (c.sq, c.ord)).internal
      r.2.settle x r.1 0 none
    else d

/-- A value that the DRAM value cache holds goes to the host at once, without a read of flash (R32). -/
def Drive.sendHeld (c : Ctx) (d : Drive) : Drive :=
  match d.ctx? c.sq c.ord with
  | none => d
  | some x =>
    if returnsValue x.op && x.turned && !x.settled && x.chunks.isEmpty && !x.data.isEmpty && !d.csc.find.contains (c.sq, c.ord) then
      (d.output x 0 x.data).useValue x.source
    else d

/-- FLUSH reports its byte count (R213). -/
def Drive.turnFlush (c : Ctx) (d : Drive) : Drive := if d.flushReady c then d.refuse c { b := leBytes 8 c.counted } else d

def Drive.turnBarrier (c : Ctx) (d : Drive) : Drive := if d.barrierReady c then d.refuse c {} else d

/-- The turn of a command below opcode 0x40. -/
def Drive.turnData (c : Ctx) (d : Drive) : Drive :=
  match c.op with
  | 0x01 => d.turnRead c
  | 0x02 => d.turnWrite c
  | 0x03 => d.turnWrite c
  | 0x04 => d.turnRead c
  | 0x05 => d.turnRead c
  | 0x06 => d.turnWrite c
  | 0x07 => d.turnWrite c
  | 0x08 => d.turnTget c
  | 0x10 => d.turnWrite c
  | 0x11 => d.turnScan c
  | 0x12 => d.turnScan c
  | 0x13 => d.turnRead c
  | 0x14 => d.turnWatch c
  | 0x15 => d.turnUnwatch c
  | 0x16 => d.turnSnapshot c
  | 0x17 => d.turnSnapclose c
  | 0x18 => d.turnFlush c
  | 0x19 => d.turnBarrier c
  | _ => d

/-- The islands that the turn of a command sends requests to, besides those that no command can take out of service: index for lookups,
walks and watches, crypto for values, digests, tokens and keys. -/
def Drive.asks (c : Ctx) (d : Drive) : List Nat :=
  (if [0x01, 0x02, 0x03, 0x04, 0x05, 0x06, 0x07, 0x10, 0x11, 0x12, 0x13, 0x14, 0x15].contains c.op then [6] else []) ++
    (if returnsValue c.op || c.storesBytes || c.wantsDigest || d.tokenOp c || [0x40, 0x42, 0x4C, 0x4D, 0x51].contains c.op
        || ([0x11, 0x12].contains c.op && c.e.flag 7) then [7] else [])

/-- The island, out of service, at whose clamp the command's requests wait (R17). -/
def Drive.clampOf (c : Ctx) (d : Drive) : Option Nat := (d.asks c).find? fun i => d.islState i != 0

/-- The command needs keys: data commands do, and those that wrap or unwrap a key (R479). (log 162 DEDUCED) -/
def Ctx.needsKeys (c : Ctx) : Bool := !adminOp c.op || [0x40, 0x42, 0x4C].contains c.op

/-- The command cannot take its turn yet, though the commit rule allows it: it needs flash in IDLE, keys that are being restored, an
index page still being read, an island out of service, or it already sends its output. -/
def Drive.heldBack (c : Ctx) (d : Drive) : Bool :=
  d.idleHolds c || (c.needsKeys && d.cry.lost) || !c.chunks.isEmpty || ((c.op == 0x11 || c.op == 0x12) && c.ran) || (d.clampOf c).isSome

/-- The requests of a command wait at a clamp, behind those that came before; a full FIFO takes none, and the command asks again (R17). -/
def Drive.waitAt (c : Ctx) (d : Drive) : Drive :=
  match d.clampOf c with
  | none => d
  | some i =>
    let l := d.upd.clamped.filter fun x => (d.ctx? x.2.1 x.2.2).any (·.alive)
    if l.contains (i, c.sq, c.ord) || decide (Config.clampRoom i ≤ (l.filter fun x => x.1 == i).length) then d
    else d.onUpd fun u => { u with clamped := l ++ [(i, c.sq, c.ord)] }

/-- The turn of a command for which the commit rule holds: its recorded failure, or its own turn. -/
def State.turnCtx (c : Ctx) (s : State) : State :=
  match c.fail with
  | some r => { s with d := s.d.refuse c r }
  | none =>
    if s.d.heldBack c then { s with d := s.d.waitAt c }
    else if adminOp c.op then s.turnAdmin c
    else if s.d.coreless c then { s with d := let r := s.d.internal; r.2.refuse c r.1 }
    else { s with d := ((s.d.turnData c).readCoreless c).sendHeld c }

/-- A command that ended may have made room for one that waits. -/
def State.wake (s : State) : State := { s with d := s.d.wake }

/-- The turn of the command of an SQ with a tag. -/
def State.turn (q tag : Nat) (s : State) : State :=
  match s.d.find? q tag fun c => s.d.turnAllowed c with
  | none => s
  | some c => (s.turnCtx c).wake

/-- The turn of the command at the front of a list of those that wait for admission. -/
def State.turnHead (l : List (Nat × Nat)) (s : State) : State :=
  match l with
  | [] => s
  | (q, o) :: _ =>
    match s.d.ctx? q o with
    | none => s
    | some c => if s.d.turnAllowed c then (s.turnCtx c).wake else s

/-- An island is back in service: what waited at its clamp is delivered in its order (R17, R577). What the island had accepted and not
answered stands in State and goes on first: chunks, reads and digests in progress. (log 131 DEDUCED) -/
def State.release (s : State) : State :=
  let up := fun (x : Nat × Nat × Nat) => s.d.islState x.1 == 0
  let go := s.d.upd.clamped.filter up
  if go.isEmpty then s
  else go.foldl (fun s x => match s.d.ctx? x.2.1 x.2.2 with
    | some c => if c.turned then { s with d := s.d.sendHeld c } else s.turnHead [x.2]
    | none => s) { s with d := s.d.onUpd fun u => { u with clamped := u.clamped.filter (!up ·) } }

/-! Rows. -/

/-- R575-R577. -/
def execLiveActionEnd (serial : Nat) (ok : Bool) (stallUs : Nat) (s : State) : Host.Outcome State Fault Refusal :=
  .next (s.actionEnds serial ok stallUs).release

def execSqeFetchIssue (sq n : Nat) (catchUp : Bool) (s : State) : Host.Outcome State Fault Refusal :=
  .next { s with d := s.d.fetchIssue sq n catchUp }

def execSqeArrival (sq : Nat) (entries : List Bytes) (s : State) : Host.Outcome State Fault Refusal :=
  .next { s with d := s.d.sqesArrive sq entries }

def execDominoResolve (sq tag : Nat) (s : State) : Host.Outcome State Fault Refusal := .next { s with d := s.d.resolveDomino sq tag }

def execBarrierRelease (sq tag : Nat) (s : State) : Host.Outcome State Fault Refusal := .next { s with d := s.d.releaseBarrier sq tag }

def execDedupRepeatRelease (sq tag : Nat) (s : State) : Host.Outcome State Fault Refusal :=
  .next { s with d := s.d.releaseRepeat sq tag }

/-- R247. -/
def execWindowEntryExpiry (s : State) : Host.Outcome State Fault Refusal :=
  .next { s with d := s.d.onKvx fun k => { k with window := k.window.filter fun w => w.live s.d.clk.life } }

/-- A command of the SQ with the tag that waits for an answer of the host. -/
def Drive.reader? (q tag : Nat) (d : Drive) : Option Ctx := d.find? q tag fun c => c.reads.any (·.issued)

def execValueDataArrival (sq tag : Nat) (data : Bytes) (s : State) : Host.Outcome State Fault Refusal :=
  .next { s with d := match s.d.reader? sq tag with
    | some c => s.d.dataArrive sq c.ord data
    | none => s.d }

def execRdmaReadRefused (sq : Nat) (tag : Option Nat) (s : State) : Host.Outcome State Fault Refusal :=
  .next { s with d := match tag with
    | none => s.d.fetchRefused sq
    | some t => match s.d.reader? sq t with
      | some c => s.d.dataRefused sq c.ord
      | none => s.d }

def execJournalProgramTimer (s : State) : Host.Outcome State Fault Refusal := .next { s with d := s.d.onKvx Kvx.journalStart }

/-- The journal program in progress is done: its commit records are in the frames of the map journal. -/
def Drive.journalled (d : Drive) : Drive := (d.onKvx Kvx.journalDone).program 1 (d.med.asideAt.getD 1 0) 0 (128 * d.kvx.journal.length)

def execJournalProgramComplete (s : State) : Host.Outcome State Fault Refusal :=
  .next { s with d := (s.d.journalled).overCheck }

/-- R395. -/
def execAdmission (s : State) : Host.Outcome State Fault Refusal := .next (s.turnHead s.d.kvx.admq)

/-- R370. -/
def execPacedAdmission (s : State) : Host.Outcome State Fault Refusal := .next (s.turnHead s.d.med.paced)

def execTurn (sq tag : Nat) (s : State) : Host.Outcome State Fault Refusal := .next (s.turn sq tag)

/-- (log 2 DESIGN CHOICE) -/
def execSettle (sq tag : Nat) (s : State) : Host.Outcome State Fault Refusal := .next { s with d := (s.d.settleRead sq tag).wake }

def execDiscardedSettle (sq tag : Nat) (s : State) : Host.Outcome State Fault Refusal :=
  .next { s with d := (s.d.discardSettle sq tag).wake }

def execAbortedSettle (sq tag : Nat) (s : State) : Host.Outcome State Fault Refusal := .next { s with d := (s.d.abortSettle sq tag).wake }

def execCqeWrite (sq tag : Nat) (s : State) : Host.Outcome State Fault Refusal :=
  .next { s with d := match s.d.find? sq tag fun c => s.d.cqeAllowed c with
    | some c => s.d.writeCqe c
    | none => s.d }

def execNotificationTimer (cq : Nat) (s : State) : Host.Outcome State Fault Refusal := .next { s with d := s.d.notifyTimer cq }

def execErrorRecordWrite (sq : Nat) (s : State) : Host.Outcome State Fault Refusal := .next { s with d := s.d.writeErr sq }

def execEventCqeRelease (conn : Nat) (s : State) : Host.Outcome State Fault Refusal := .next { s with d := s.d.releaseEvent conn }

/-- R310, R312: the check waits while the index island is out of service. -/
def execWatchCheck (s : State) : Host.Outcome State Fault Refusal := .next { s with d := if s.d.islState 6 = 0 then s.d.runCheck else s.d }

end Sys2Proof.Machine
end

