-- ==== Sys2Proof/Machine/Commands.lean ====
section
/-! DEFINITION. The rows of the host's commands: the entry at the head of an SQ fetched, checked, its data read from host memory, its
turn taken when the commit rule lets it, its value read from flash without an error. Settling and the CQE have rows of their own
(03, 04, 05, 06). -/

namespace Sys2Proof.Machine

/-- Reads that one command may need at most, far more than its lists can ask for. -/
def readFuel : Nat := 20000

/-- Fetches the entry at the head of an SQ alone: in its round, else as a catch-up fetch. Answers its fetch order. -/
def Drive.fetchOne (q : Nat) (d : Drive) : Option Nat × Drive :=
  if !d.readable q then (none, d)
  else
    let one := fun (catchUp : Bool) (d : Drive) => let d := d.fetchIssue q 1 catchUp; match d.sqeRead? q with
      | some (x, r, [o]) => (some o, (d.dropReq x.idx r).pump x.idx)
      | _ => (none, d)
    match one false d with
    | (some o, d) => (some o, d)
    | (none, d) => one true d

/-- Every chunk of a read that takes no step of the ladder. -/
def Drive.readChunks (q ord : Nat) (d : Drive) : Drive :=
  match d.ctx? q ord with
  | none => d
  | some c =>
    if c.settled then d
    else
      c.chunks.foldl (fun d x => match d.ctx? q ord with
        | some y => if d.reading y x.1 then d.chunkRead y x.1 else d
        | none => d) d

/-- A command of the host: entry `e` with opcode `op` at the head of SQ `q`, host memory `m` behind its descriptors. Nothing happens
while the entry cannot be fetched. (log 3 DESIGN CHOICE) -/
def State.command (q op : Nat) (e : Sqe) (m : HostMem) (s : State) : State :=
  let f := s.d.fetchOne q
  match f.1 with
  | none => { s with d := f.2 }
  | some o =>
    let d := ((f.2.arrive q o op e).wake).feed q o m readFuel
    let s : State := { s with d := d }
    match d.ctx? q o with
    | none => s
    | some c =>
      if d.turnAllowed c then let s := s.turnCtx c; { s with d := (s.d.readChunks q o).wake } else s

/-! Data and set-level commands. -/

def execGet (sq : Nat) (e : Sqe) (m : HostMem) (s : State) : Host.Outcome State Fault Refusal :=
  .next (s.command sq 0x01 e m)

def execPut (sq : Nat) (e : Sqe) (m : HostMem) (s : State) : Host.Outcome State Fault Refusal :=
  .next (s.command sq 0x02 e m)

def execDelete (sq : Nat) (e : Sqe) (m : HostMem) (s : State) : Host.Outcome State Fault Refusal :=
  .next (s.command sq 0x03 e m)

def execExistsKey (sq : Nat) (e : Sqe) (m : HostMem) (s : State) : Host.Outcome State Fault Refusal :=
  .next (s.command sq 0x04 e m)

def execGetrange (sq : Nat) (e : Sqe) (m : HostMem) (s : State) : Host.Outcome State Fault Refusal :=
  .next (s.command sq 0x05 e m)

def execAppend (sq : Nat) (e : Sqe) (m : HostMem) (s : State) : Host.Outcome State Fault Refusal :=
  .next (s.command sq 0x06 e m)

def execCas (sq : Nat) (e : Sqe) (m : HostMem) (s : State) : Host.Outcome State Fault Refusal :=
  .next (s.command sq 0x07 e m)

def execTget (sq : Nat) (e : Sqe) (m : HostMem) (s : State) : Host.Outcome State Fault Refusal :=
  .next (s.command sq 0x08 e m)

def execBatch (sq : Nat) (e : Sqe) (m : HostMem) (s : State) : Host.Outcome State Fault Refusal :=
  .next (s.command sq 0x10 e m)

def execScan (sq : Nat) (e : Sqe) (m : HostMem) (s : State) : Host.Outcome State Fault Refusal :=
  .next (s.command sq 0x11 e m)

def execSearch (sq : Nat) (e : Sqe) (m : HostMem) (s : State) : Host.Outcome State Fault Refusal :=
  .next (s.command sq 0x12 e m)

def execFind (sq : Nat) (e : Sqe) (m : HostMem) (s : State) : Host.Outcome State Fault Refusal :=
  .next (s.command sq 0x13 e m)

def execWatch (sq : Nat) (e : Sqe) (m : HostMem) (s : State) : Host.Outcome State Fault Refusal :=
  .next (s.command sq 0x14 e m)

def execUnwatch (sq : Nat) (e : Sqe) (m : HostMem) (s : State) : Host.Outcome State Fault Refusal :=
  .next (s.command sq 0x15 e m)

def execSnapshot (sq : Nat) (e : Sqe) (m : HostMem) (s : State) : Host.Outcome State Fault Refusal :=
  .next (s.command sq 0x16 e m)

def execSnapclose (sq : Nat) (e : Sqe) (m : HostMem) (s : State) : Host.Outcome State Fault Refusal :=
  .next (s.command sq 0x17 e m)

def execFlush (sq : Nat) (e : Sqe) (m : HostMem) (s : State) : Host.Outcome State Fault Refusal :=
  .next (s.command sq 0x18 e m)

def execBarrier (sq : Nat) (e : Sqe) (m : HostMem) (s : State) : Host.Outcome State Fault Refusal :=
  .next (s.command sq 0x19 e m)

/-! Admin commands. A row that stands for one form of a command sets the byte that chooses the form. -/

def execKscreate (sq : Nat) (e : Sqe) (m : HostMem) (s : State) : Host.Outcome State Fault Refusal :=
  .next (s.command sq 0x40 e m)

def execKsdelete (sq : Nat) (e : Sqe) (m : HostMem) (s : State) : Host.Outcome State Fault Refusal :=
  .next (s.command sq 0x41 e m)

def execKsmodify (sq : Nat) (e : Sqe) (m : HostMem) (s : State) : Host.Outcome State Fault Refusal :=
  .next (s.command sq 0x42 e m)

def execQcreate (sq : Nat) (e : Sqe) (m : HostMem) (s : State) : Host.Outcome State Fault Refusal :=
  .next (s.command sq 0x43 e m)

def execQdeleteSq (sq : Nat) (e : Sqe) (m : HostMem) (s : State) : Host.Outcome State Fault Refusal :=
  .next (s.command sq 0x44 (e.withBit 2 false) m)

def execQdeleteCq (sq : Nat) (e : Sqe) (m : HostMem) (s : State) : Host.Outcome State Fault Refusal :=
  .next (s.command sq 0x44 (e.withBit 2 true) m)

def execQrestartResume (sq : Nat) (e : Sqe) (m : HostMem) (s : State) : Host.Outcome State Fault Refusal :=
  .next (s.command sq 0x45 (e.withBit 2 false) m)

def execQrestartDiscard (sq : Nat) (e : Sqe) (m : HostMem) (s : State) : Host.Outcome State Fault Refusal :=
  .next (s.command sq 0x45 (e.withBit 2 true) m)

def execAbort (sq : Nat) (e : Sqe) (m : HostMem) (s : State) : Host.Outcome State Fault Refusal :=
  .next (s.command sq 0x46 e m)

def execRegRead (sq : Nat) (e : Sqe) (m : HostMem) (s : State) : Host.Outcome State Fault Refusal :=
  .next (s.command sq 0x47 e m)

def execRegWrite (sq : Nat) (e : Sqe) (m : HostMem) (s : State) : Host.Outcome State Fault Refusal :=
  .next (s.command sq 0x48 e m)

def execLogread (sq : Nat) (e : Sqe) (m : HostMem) (s : State) : Host.Outcome State Fault Refusal :=
  .next (s.command sq 0x49 e m)

def execEvfreeze (sq : Nat) (e : Sqe) (m : HostMem) (s : State) : Host.Outcome State Fault Refusal :=
  .next (s.command sq 0x4A e m)

def execEvthaw (sq : Nat) (e : Sqe) (m : HostMem) (s : State) : Host.Outcome State Fault Refusal :=
  .next (s.command sq 0x4B e m)

def execKeyloadSlot (sq : Nat) (e : Sqe) (m : HostMem) (s : State) : Host.Outcome State Fault Refusal :=
  .next (s.command sq 0x4C (e.withCmd 0 [0]) m)

def execKeyloadTenant (sq : Nat) (e : Sqe) (m : HostMem) (s : State) : Host.Outcome State Fault Refusal :=
  .next (s.command sq 0x4C (e.withCmd 0 [1]) m)

def execTokenKeyRotation (sq : Nat) (e : Sqe) (m : HostMem) (s : State) : Host.Outcome State Fault Refusal :=
  .next (s.command sq 0x4C (e.withCmd 0 [2]) m)

def execKeydropSlot (sq : Nat) (e : Sqe) (m : HostMem) (s : State) : Host.Outcome State Fault Refusal :=
  .next (s.command sq 0x4D (e.withCmd 0 [0]) m)

def execKeydropTenant (sq : Nat) (e : Sqe) (m : HostMem) (s : State) : Host.Outcome State Fault Refusal :=
  .next (s.command sq 0x4D (e.withCmd 0 [1]) m)

def execSetmode (sq : Nat) (e : Sqe) (m : HostMem) (s : State) : Host.Outcome State Fault Refusal :=
  .next (s.command sq 0x4E e m)

def execSelftestShort (sq : Nat) (e : Sqe) (m : HostMem) (s : State) : Host.Outcome State Fault Refusal :=
  .next (s.command sq 0x4F (e.withCmd 0 [1]) m)

def execSelftestExtended (sq : Nat) (e : Sqe) (m : HostMem) (s : State) : Host.Outcome State Fault Refusal :=
  .next (s.command sq 0x4F (e.withCmd 0 [2]) m)

def execSelftestStop (sq : Nat) (e : Sqe) (m : HostMem) (s : State) : Host.Outcome State Fault Refusal :=
  .next (s.command sq 0x4F (e.withCmd 0 [0xF]) m)

def execFwdownload (sq : Nat) (e : Sqe) (m : HostMem) (s : State) : Host.Outcome State Fault Refusal :=
  .next (s.command sq 0x50 e m)

def execFwverify (sq : Nat) (e : Sqe) (m : HostMem) (s : State) : Host.Outcome State Fault Refusal :=
  .next (s.command sq 0x51 e m)

def execFwactivateReset (sq : Nat) (e : Sqe) (m : HostMem) (s : State) : Host.Outcome State Fault Refusal :=
  .next (s.command sq 0x52 (e.withBit 0 false) m)

def execFwactivateLive (sq : Nat) (e : Sqe) (m : HostMem) (s : State) : Host.Outcome State Fault Refusal :=
  .next (s.command sq 0x52 (e.withBit 0 true) m)

def execFwconfirm (sq : Nat) (e : Sqe) (m : HostMem) (s : State) : Host.Outcome State Fault Refusal :=
  .next (s.command sq 0x53 e m)

def execSanitize (sq : Nat) (e : Sqe) (m : HostMem) (s : State) : Host.Outcome State Fault Refusal :=
  .next (s.command sq 0x54 e m)

def execIdentify (sq : Nat) (e : Sqe) (m : HostMem) (s : State) : Host.Outcome State Fault Refusal :=
  .next (s.command sq 0x55 e m)

end Sys2Proof.Machine
end

