-- ==== Sys2Proof/Machine/Mgmt.lean ====
section
/-! DEFINITION. The management bus: MCTP packets and control messages, register access, recovery messages, the sealed session (15,
18). -/

namespace Sys2Proof.Machine

/-! Message bodies. -/

/-- The message type of Lemord messages and the vendor header (R637). -/
def vendorHead : Bytes := [0x7F, 0x00, 0x01, 0x2F, 0x8B]

/-- A command may be sent by the management bus and is answered. -/
def Drive.onMgmtBus (d : Drive) : Bool := d.reachable

/-- A message is discarded and counted in `CSC_MDROP` (R635-R637). -/
def Drive.msgDropped (d : Drive) : Drive := d.onMgmt fun m => { m with mDrop := wrap32 (m.mDrop + 1) }

/-! Class 1: registers (R638, R639). -/

/-- The range of a register message. -/
def regSpan (off n : Nat) : Bool := off % 4 == 0 && decide (1 ≤ n) && decide (n ≤ 64) && decide (off + 4 * n ≤ 0x10000)

/-- A register message: its command byte and fields. A sealed WRITE is not refused for `SECREQ`. (log 89 DEDUCED) -/
def State.registerMsg (hidden : Bool) (p : Bytes) (s : State) : Bytes × State :=
  let off := le p 1 2
  let n := byteAt p 3
  match byteAt p 0 with
  | 1 =>
    if p.length = 4 && regSpan off n then
      let r := s.readRegs .smbus off n
      ([1, 0] ++ r.1.flatMap (fun w => leBytes 4 w.toNat), r.2)
    else ([1, 1], s)
  | 2 =>
    if s.d.mgmt.secReq && !hidden then ([2, 2], s)
    else if p.length = 4 + 4 * n && regSpan off n then
      ([2, 0], { s with d := s.d.postAll .smbus off ((List.range n).map fun i => le p (4 + 4 * i) 4) })
    else ([2, 1], s)
  | c => ([BitVec.ofNat 8 c, 5], s)

/-! Class 2: recovery (R561, R562). -/

/-- Whether a recovery command may act on an area in this mode: the preload area in any, an image slot in RECOVERY. -/
def Drive.areaAllowed (a : Nat) (d : Drive) : Bool := a == 2 || d.pwr.cur == 2

/-- Bytes of the flash are erased. -/
def Nv.blank (a n : Nat) (v : Nv) : Bool := v.flash.all fun c => decide (c.1 < a) || decide (a + n ≤ c.1)

/-- What STATUS answers. Both slots have failed when the drive is in RECOVERY. -/
def State.statusData (s : State) : Bytes :=
  leBytes 1 s.d.pwr.cur ++ leBytes 1 (bitAt 0 s.d.mgmt.areaBusy.isSome) ++ leBytes 2 s.nv.fuses ++ leBytes 1 (if s.d.pwr.cur = 2 then 3 else 0)
    ++ leBytes 8 (s.nv.slotRev 0) ++ leBytes 8 (s.nv.slotRev 1)

/-- A slot is written or erased: it counts as not verified. -/
def Drive.slotChanged (a : Nat) (d : Drive) : Drive := d.onMgmt fun m => { m with verified := m.verified.filter (· != a) }

/-- The record that SLOT_INSTALL writes. -/
def Nv.installed (slot : Nat) (v : Nv) : BootRec :=
  { slot := slot, trial := false, recovered := true, gen := 0, trials := 0, prevSlot := 1 - slot, rev := v.slotRev slot
    prevRev := v.slotRev (1 - slot), actLife := 0 }

/-- A recovery message: its command byte and fields. (log 87 DEDUCED) -/
def State.recoveryMsg (p : Bytes) (s : State) : Bytes × State :=
  let a := byteAt p 1
  let busy := s.d.mgmt.areaBusy.isSome
  match byteAt p 0 with
  | 1 => if p.length = 1 then ([1, 0] ++ s.statusData, s) else ([1, 1], s)
  | 2 =>
    if p.length ≠ 2 ∨ (areaOf a).isNone then ([2, 1], s)
    else if !s.d.areaAllowed a then ([2, 5], s)
    else if busy then ([2, 3], s)
    else ([2, 0], { s with d := (s.d.slotChanged a).onMgmt fun m => { m with areaBusy := some a } })
  | 3 =>
    let off := le p 2 4
    let data := p.drop 6
    (match areaOf a with
     | none => ([3, 1], s)
     | some (base, size) =>
       if off % 4 ≠ 0 ∨ data.length < 4 ∨ data.length > 256 ∨ data.length % 4 ≠ 0 ∨ off + data.length > size then ([3, 1], s)
       else if !s.d.areaAllowed a then ([3, 5], s)
       else if busy then ([3, 3], s)
       else if !s.nv.blank (base + off) data.length then ([3, 2], s)
       else ([3, 0], { s with nv := s.nv.write (base + off) data, d := s.d.slotChanged a }))
  | 4 =>
    if p.length ≠ 2 ∨ a > 1 then ([4, 1], s)
    else if s.d.pwr.cur ≠ 2 then ([4, 5], s)
    else if busy then ([4, 3], s)
    else
      let check := s.nv.verify a
      let d := if check = 0 then (s.d.slotChanged a).onMgmt fun m => { m with verified := a :: m.verified } else s.d.slotChanged a
      ([4, 0, BitVec.ofNat 8 check], { s with d := d })
  | 5 =>
    if p.length ≠ 2 ∨ a > 1 then ([5, 1], s)
    else if s.d.pwr.cur ≠ 2 then ([5, 5], s)
    else if busy then ([5, 3], s)
    else if !s.d.mgmt.verified.contains a then ([5, 4], s)
    else ([5, 0], { s with nv := s.nv.writeBoot (s.nv.installed a) })
  | c => ([BitVec.ofNat 8 c, 5], s)

/-- The erase in progress is complete. (log 88 DEDUCED) -/
def State.eraseDone (s : State) : State :=
  match s.d.mgmt.areaBusy with
  | none => s
  | some a =>
    match areaOf a with
    | none => s
    | some (base, size) => { s with nv := s.nv.erase base size, d := s.d.onMgmt fun m => { m with areaBusy := none } }

/-! Class 3: the sealed session (R640). -/

/-- Sessions are available: the firmware clusters have started, which they never do in RECOVERY. -/
def Drive.sessionsUp (d : Drive) : Bool := d.pwr.cur != 2 && !(d.pwr.cur == 1 && d.upd.cores == 0)

/-- No session, its ID kept. -/
def Session.ended (x : Session) : Session := { x with isOpen := false, tenant := 0, key := [], counter := 0, challenge := none }

def Drive.onSession (f : Session → Session) (d : Drive) : Drive := d.onMgmt fun m => { m with session := f m.session }

/-- CHALLENGE. -/
def Drive.sessChallenge (d : Drive) : Bytes × Drive :=
  let r := d.draw 34
  let id := r.1.take 2
  let ch := slice r.1 2 32
  ([1, 0] ++ id ++ ch, r.2.onSession fun x => { x.ended with id := leNat id, challenge := some ch })

/-- The keys of a session: the first seals requests, the second responses. -/
def sessionKeys (challenge : Bytes) (sx : Nat) : Bytes := hkdfSha256 challenge (beBytes 48 sx) (ascii "CRK72 smbus session") 64

/-- OPEN: `q` holds the request fields, the HMAC last. (log 90 DEDUCED) -/
def Drive.sessOpen (q : Bytes) (d : Drive) : Bytes × Drive :=
  let x := d.mgmt.session
  let fail := ([2, 3], d)
  match x.challenge, d.kvx.store.tenant? (le q 0 4) with
  | some ch, some t =>
    let px := beNat (slice q 6 48)
    let py := beNat (slice q 54 48)
    if q.length ≠ 134 ∨ le q 4 2 ≠ x.id ∨ !t.admin ∨ !onCurve px py then fail
    else if hmacSha256 t.key (ch ++ q.take 102) ≠ slice q 102 32 then fail
    else
      ([2, 0], d.onSession fun x =>
        { x with isOpen := true, tenant := t.id, key := sessionKeys ch (ecdhX driveScalar px py), counter := 0, challenge := none, last := d.clk.life })
  | _, _ => fail

/-- CLOSE. -/
def Drive.sessClose (sid : Nat) (d : Drive) : Bytes × Drive :=
  if d.mgmt.session.isOpen && d.mgmt.session.id == sid then ([4, 0], d.onSession Session.ended) else ([4, 3], d)

/-- The nonce of a counter. -/
def sealNonce (counter : Nat) : Bytes := leBytes 8 counter ++ leBytes 4 0

/-- A message of class 1 or 2: class byte and payload; none for another class. -/
def State.plainMsg (hidden : Bool) (b : Bytes) (s : State) : Option Bytes × State :=
  match byteAt b 0 with
  | 1 => let r := s.registerMsg hidden (b.drop 1); (some (1 :: r.1), r.2)
  | 2 => let r := s.recoveryMsg (b.drop 1); (some (2 :: r.1), r.2)
  | _ => (none, { s with d := s.d.msgDropped })

/-- SEALED: `q` holds session ID, counter, ciphertext and tag. The response payload is sealed as the request was. (log 91 DEDUCED) -/
def State.sessSealed (q : Bytes) (s : State) : Option Bytes × State :=
  let x := s.d.mgmt.session
  let counter := le q 2 8
  let fail := (some [3, 3], s)
  if !x.isOpen || decide (q.length < 26) || le q 0 2 != x.id || decide (counter ≤ x.counter) then fail
  else
    match gcmOpen (x.key.take 32) (sealNonce counter) (vendorHead ++ [3, 3] ++ q.take 10) (q.drop 10) with
    | none => fail
    | some m =>
      let r := ({ s with d := s.d.onSession fun x => { x with counter := counter, last := s.d.clk.life } } : State).plainMsg true m
      match r.1 with
      | none => r
      | some b =>
        let head := [3, 0] ++ q.take 10
        (some (head ++ gcmSeal (x.key.drop 32) (sealNonce counter) (vendorHead ++ [3] ++ head) b), r.2)

/-- A session message: its command byte and fields. -/
def State.sessionMsg (p : Bytes) (s : State) : Option Bytes × State :=
  let lift := fun (r : Bytes × Drive) => (some r.1, { s with d := r.2 })
  if !s.d.sessionsUp then (some [p.getD 0 0, 4], s)
  else
    match byteAt p 0 with
    | 1 => if p.length = 1 then lift s.d.sessChallenge else (some [1, 1], s)
    | 2 => lift (s.d.sessOpen (p.drop 1))
    | 3 => s.sessSealed (p.drop 1)
    | 4 => if p.length = 3 then lift (s.d.sessClose (le p 1 2)) else (some [4, 1], s)
    | c => (some [BitVec.ofNat 8 c, 5], s)

/-! MCTP control messages (R635; DSP0236). -/

/-- Completion codes of DSP0236: invalid data, invalid length, unsupported command. -/
def ccBadData : Byte := 2
def ccBadLength : Byte := 3
def ccUnsupported : Byte := 5

/-- Message types that the drive has: the base specification, control, vendor-defined. -/
def mctpType (t : Byte) : Bool := t == 0xFF || t == 0x00 || t == 0x7F

/-- Set Endpoint ID: operation and EID. (log 92 PRESUMED) -/
def Drive.ctlSetEid (op : Nat) (eid : Nat) (d : Drive) : Bytes × Drive :=
  if op % 4 ≥ 2 ∨ eid = 0 ∨ eid = 0xFF then ([ccBadData], d)
  else ([0, 0, BitVec.ofNat 8 eid, 0], d.onMgmt fun m => { m with eid := eid })

/-- What a control command answers after its command byte; `q` holds its data. -/
def Drive.control (cmd : Nat) (q : Bytes) (d : Drive) : Bytes × Drive :=
  let want := fun (n : Nat) (r : Bytes × Drive) => if q.length = n then r else ([ccBadLength], d)
  match cmd with
  | 1 => want 2 (d.ctlSetEid (byteAt q 0) (byteAt q 1))
  | 2 => want 0 ([0, BitVec.ofNat 8 d.mgmt.eid, 0, 0], d)
  | 3 => want 0 (0 :: padTo 16 Config.uuid, d)
  | 4 =>
    let t := q.getD 0 0
    want 1 (if mctpType t then [0, 1] ++ leBytes 4 (Config.mctpVersion t).toNat else [0x80], d)
  | 5 => want 0 ([0, 1, 0x7F], d)
  | 6 =>
    want 1 (if byteAt q 0 = 0 then [0, 0xFF, 0x01, 0x00, 0x01, 0x2F, 0x8B] ++ beBytes 2 Config.commandSet.toNat else [ccBadData], d)
  | _ => ([ccUnsupported], d)

/-- A control message; a response of another endpoint is not answered. -/
def Drive.controlMsg (b : Bytes) (d : Drive) : Option Bytes × Drive :=
  if b.length < 3 ∨ !bit (byteAt b 1) 7 then (none, d)
  else
    let r := d.control (byteAt b 2) (b.drop 3)
    (some ([0, BitVec.ofNat 8 (byteAt b 1 % 32), b.getD 2 0] ++ r.1), r.2)

/-! Messages and packets (R635-R637). -/

/-- A whole message and its response. -/
def State.message (b : Bytes) (s : State) : Option Bytes × State :=
  if b.getD 0 1 = 0 then let r := s.d.controlMsg b; (r.1, { s with d := r.2 })
  else if b.take 5 = vendorHead then
    let r := if byteAt b 5 = 3 ∧ 6 < b.length then let x := s.sessionMsg (b.drop 6); (x.1.map fun y => 3 :: y, x.2)
      else if 6 < b.length then s.plainMsg false (b.drop 5)
      else (none, { s with d := s.d.msgDropped })
    (r.1.map fun y => vendorHead ++ y, r.2)
  else (none, { s with d := s.d.msgDropped })

/-- A response goes out; it is the one that a retry sends again. -/
def Drive.respond (ps : List Bytes) (d : Drive) : Drive := d.onMgmt fun m => { m with resp := ps, tries := 0, out := m.out ++ ps }

/-- A message of a row: its response goes out as a message body. (log 94 DESIGN CHOICE) -/
def State.busMessage (b : Bytes) (s : State) : State :=
  if s.d.onMgmtBus then
    let r := s.message b
    match r.1 with
    | some x => { r.2 with d := r.2.d.respond [x] }
    | none => r.2
  else s

/-- The PEC of SMBus: a CRC-8 with polynomial 0x07. -/
def pec (bs : Bytes) : Byte :=
  bs.foldl (fun c b => (List.range 8).foldl (fun x _ => if x.getLsbD 7 then x <<< 1 ^^^ 0x07 else x <<< 1) (c ^^^ b)) 0

/-- Cuts a message into bodies of 64 bytes. -/
def mctpParts (b : Bytes) : List Bytes := (List.range (max 1 ((b.length + 63) / 64))).map fun i => (b.drop (64 * i)).take 64

/-- The packets of a response to a message from slave address `bus` and endpoint `eid` with tag `tag`. -/
def Drive.packets (bus eid tag : Nat) (b : Bytes) (d : Drive) : List Bytes :=
  let ps := mctpParts b
  (numbered ps).map fun x =>
    let flags := bitAt 7 (x.1 == 0) + bitAt 6 (x.1 + 1 == ps.length) + fbits 4 2 x.1 + tag
    let p := leBytes 1 (2 * bus) ++ [0x0F] ++ leBytes 1 (x.2.length + 5) ++ leBytes 1 (2 * d.mgmt.addr + 1) ++ [0x01] ++ leBytes 1 eid
      ++ leBytes 1 d.mgmt.eid ++ leBytes 1 flags ++ x.2
    p ++ [pec p]

/-- The assembly of a source and tag. -/
def Mgmt.assembly (src tag : Nat) (m : Mgmt) : Option Assembly := m.asms.find? fun a => a.src == src && a.tag == tag

def Drive.dropAssembly (src tag : Nat) (d : Drive) : Drive :=
  d.onMgmt fun m => { m with asms := m.asms.filter fun a => !(a.src == src && a.tag == tag) }

/-- A good packet: what its message is so far, or why it ends here. -/
def Drive.assemble (src tag seq : Nat) (som : Bool) (body : Bytes) (d : Drive) : Option Bytes × Drive :=
  let old := d.mgmt.assembly src tag
  let d' := d.dropAssembly src tag
  if som then
    let d' := if old.isSome then d'.msgDropped else d'
    if d'.mgmt.asms.length ≥ 4 then (none, d'.msgDropped) else (some body, d')
  else
    match old with
    | none => (none, d)
    | some a =>
      if seq ≠ (a.seq + 1) % 4 ∨ a.body.length + body.length > 512 then (none, d'.msgDropped) else (some (a.body ++ body), d')

/-- A packet addressed to the drive with a good PEC (R635, R636). (log 93 DEDUCED) -/
def State.packet (p : Bytes) (s : State) : State :=
  let body := (p.drop 8).take (p.length - 9)
  let flags := byteAt p 7
  let src := byteAt p 6
  let tag := flags % 8
  let own := byteAt p 5 == s.d.mgmt.eid
  let whole := p.length == byteAt p 2 + 4 && byteAt p 1 == 0x0F && byteAt p 4 % 16 == 1 && bit (byteAt p 3) 0
  if !whole || !own || !bit flags 3 || body.isEmpty then s
  else
    let last := bit flags 6
    if body.length > 64 || (!last && body.length != 64) then { s with d := (s.d.dropAssembly src tag).msgDropped }
    else
      let r := s.d.assemble src tag (field flags 4 2) (bit flags 7) body
      match r.1 with
      | none => { s with d := r.2 }
      | some b =>
        if last then
          let x := ({ s with d := r.2 } : State).message b
          match x.1 with
          | some y => { x.2 with d := x.2.d.respond (x.2.d.packets (byteAt p 3 / 2) src tag y) }
          | none => x.2
        else { s with d := r.2.onMgmt fun m => { m with asms := m.asms ++ [{ tag := tag, src := src, seq := field flags 4 2, body := b }] } }

/-- Bytes on the bus in a block write, the PEC last. -/
def State.busPacket (p : Bytes) (s : State) : State :=
  if !s.d.onMgmtBus || p.length < 9 || byteAt p 0 != 2 * s.d.mgmt.addr then s
  else if p.getLast? ≠ some (pec p.dropLast) then { s with d := s.d.onMgmt fun m => { m with pecErr := wrap32 (m.pecErr + 1) } }
  else s.packet p

/-! Rows. A row that stands for one message answers it as a message body. -/

/-- A control request with instance ID 0. -/
def controlReq (cmd : Byte) (q : Bytes) : Bytes := [0, 0x80, cmd] ++ q

def execMctpPacket (packet : Bytes) (s : State) : Host.Outcome State Fault Refusal := .next (s.busPacket packet)

def execSetEndpointId (eid : Byte) (op : BitVec 2) (s : State) : Host.Outcome State Fault Refusal :=
  .next (s.busMessage (controlReq 1 [BitVec.ofNat 8 op.toNat, eid]))

def execGetEndpointId (s : State) : Host.Outcome State Fault Refusal := .next (s.busMessage (controlReq 2 []))

def execGetEndpointUuid (s : State) : Host.Outcome State Fault Refusal := .next (s.busMessage (controlReq 3 []))

def execGetMctpVersionSupport (type : Byte) (s : State) : Host.Outcome State Fault Refusal := .next (s.busMessage (controlReq 4 [type]))

def execGetMessageTypeSupport (s : State) : Host.Outcome State Fault Refusal := .next (s.busMessage (controlReq 5 []))

def execGetVendorMessageSupport (sel : Byte) (s : State) : Host.Outcome State Fault Refusal := .next (s.busMessage (controlReq 6 [sel]))

def execMctpRead (off count : Nat) (s : State) : Host.Outcome State Fault Refusal :=
  .next (s.busMessage (vendorHead ++ [1, 1] ++ leBytes 2 off ++ leBytes 1 count))

def execMctpWrite (off count : Nat) (data : Bytes) (s : State) : Host.Outcome State Fault Refusal :=
  .next (s.busMessage (vendorHead ++ [1, 2] ++ leBytes 2 off ++ leBytes 1 count ++ data))

def execStatus (s : State) : Host.Outcome State Fault Refusal := .next (s.busMessage (vendorHead ++ [2, 1]))

def execAreaErase (area : Nat) (s : State) : Host.Outcome State Fault Refusal := .next (s.busMessage (vendorHead ++ [2, 2] ++ leBytes 1 area))

def execAreaEraseComplete (s : State) : Host.Outcome State Fault Refusal := .next s.eraseDone

def execAreaWrite (area off : Nat) (data : Bytes) (s : State) : Host.Outcome State Fault Refusal :=
  .next (s.busMessage (vendorHead ++ [2, 3] ++ leBytes 1 area ++ leBytes 4 off ++ data))

def execSlotVerify (slot : Nat) (s : State) : Host.Outcome State Fault Refusal := .next (s.busMessage (vendorHead ++ [2, 4] ++ leBytes 1 slot))

def execSlotInstall (slot : Nat) (s : State) : Host.Outcome State Fault Refusal := .next (s.busMessage (vendorHead ++ [2, 5] ++ leBytes 1 slot))

def execSessionChallenge (s : State) : Host.Outcome State Fault Refusal := .next (s.busMessage (vendorHead ++ [3, 1]))

/-- `request` holds the fields of OPEN. -/
def execSessionOpen (request : Bytes) (s : State) : Host.Outcome State Fault Refusal :=
  .next (s.busMessage (vendorHead ++ [3, 2] ++ request))

/-- `request` holds the fields of SEALED. -/
def execSessionSealed (request : Bytes) (s : State) : Host.Outcome State Fault Refusal :=
  .next (s.busMessage (vendorHead ++ [3, 3] ++ request))

def execSessionClose (sid : BitVec 16) (s : State) : Host.Outcome State Fault Refusal :=
  .next (s.busMessage (vendorHead ++ [3, 4] ++ leBytes 2 sid.toNat))

/-- 60 s without a SEALED message. -/
def execSessionTimeout (s : State) : Host.Outcome State Fault Refusal :=
  let x := s.d.mgmt.session
  .next { s with d := if x.isOpen && decide (x.last + 60000000000 ≤ s.d.clk.life) then s.d.onSession Session.ended else s.d }

/-- R636. -/
def execSmbusTimeout (s : State) : Host.Outcome State Fault Refusal :=
  .next { s with d := if s.d.onMgmtBus then s.d.onMgmt fun m => { m with smbTo := wrap32 (m.smbTo + 1) } else s.d }

/-- R636: a response that failed goes out again, at most 3 times. -/
def execResponseRetry (s : State) : Host.Outcome State Fault Refusal :=
  let again (m : Mgmt) : Mgmt :=
    if m.tries < 3 then { m with tries := if m.resp.isEmpty then m.tries else m.tries + 1, out := m.out ++ m.resp }
    else { m with resp := [], tries := 0 }
  .next { s with d := if s.d.onMgmtBus then s.d.onMgmt again else s.d }

/-- R633: the drive's own address, with an open bit 0, while it holds ALERT#. (log 95 DESIGN CHOICE) -/
def execAlertResponse (s : State) : Host.Outcome State Fault Refusal :=
  let r := s.d.drawNat
  let b := leBytes 1 (2 * s.d.mgmt.addr + r.1 % 2)
  .next { s with d :=
    if s.d.onMgmtBus && !s.d.evr.alerting.isEmpty then r.2.onMgmt fun m => { m with out := m.out ++ [b ++ [pec (0x19 :: b)]] } else s.d }

end Sys2Proof.Machine
end

