-- ==== Sys2Proof/Machine/Dispatch.lean ====
section
/-! DEFINITION. One arm for each command: its meaning. -/

namespace Sys2Proof.Machine

def exec (i : Instr) (s : State) : Host.Outcome State Fault Refusal :=
  match i with
  | .get sq e m => Sys2Proof.Machine.execGet sq e m s
  | .put sq e m => Sys2Proof.Machine.execPut sq e m s
  | .delete sq e m => Sys2Proof.Machine.execDelete sq e m s
  | .existsKey sq e m => Sys2Proof.Machine.execExistsKey sq e m s
  | .getrange sq e m => Sys2Proof.Machine.execGetrange sq e m s
  | .append sq e m => Sys2Proof.Machine.execAppend sq e m s
  | .cas sq e m => Sys2Proof.Machine.execCas sq e m s
  | .tget sq e m => Sys2Proof.Machine.execTget sq e m s
  | .batch sq e m => Sys2Proof.Machine.execBatch sq e m s
  | .scan sq e m => Sys2Proof.Machine.execScan sq e m s
  | .search sq e m => Sys2Proof.Machine.execSearch sq e m s
  | .find sq e m => Sys2Proof.Machine.execFind sq e m s
  | .watch sq e m => Sys2Proof.Machine.execWatch sq e m s
  | .unwatch sq e m => Sys2Proof.Machine.execUnwatch sq e m s
  | .snapshot sq e m => Sys2Proof.Machine.execSnapshot sq e m s
  | .snapclose sq e m => Sys2Proof.Machine.execSnapclose sq e m s
  | .flush sq e m => Sys2Proof.Machine.execFlush sq e m s
  | .barrier sq e m => Sys2Proof.Machine.execBarrier sq e m s
  | .kscreate sq e m => Sys2Proof.Machine.execKscreate sq e m s
  | .ksdelete sq e m => Sys2Proof.Machine.execKsdelete sq e m s
  | .ksmodify sq e m => Sys2Proof.Machine.execKsmodify sq e m s
  | .qcreate sq e m => Sys2Proof.Machine.execQcreate sq e m s
  | .qdeleteSq sq e m => Sys2Proof.Machine.execQdeleteSq sq e m s
  | .qdeleteCq sq e m => Sys2Proof.Machine.execQdeleteCq sq e m s
  | .qrestartResume sq e m => Sys2Proof.Machine.execQrestartResume sq e m s
  | .qrestartDiscard sq e m => Sys2Proof.Machine.execQrestartDiscard sq e m s
  | .abort sq e m => Sys2Proof.Machine.execAbort sq e m s
  | .regRead sq e m => Sys2Proof.Machine.execRegRead sq e m s
  | .regWrite sq e m => Sys2Proof.Machine.execRegWrite sq e m s
  | .logread sq e m => Sys2Proof.Machine.execLogread sq e m s
  | .evfreeze sq e m => Sys2Proof.Machine.execEvfreeze sq e m s
  | .evthaw sq e m => Sys2Proof.Machine.execEvthaw sq e m s
  | .keyloadSlot sq e m => Sys2Proof.Machine.execKeyloadSlot sq e m s
  | .keyloadTenant sq e m => Sys2Proof.Machine.execKeyloadTenant sq e m s
  | .tokenKeyRotation sq e m => Sys2Proof.Machine.execTokenKeyRotation sq e m s
  | .keydropSlot sq e m => Sys2Proof.Machine.execKeydropSlot sq e m s
  | .keydropTenant sq e m => Sys2Proof.Machine.execKeydropTenant sq e m s
  | .setmode sq e m => Sys2Proof.Machine.execSetmode sq e m s
  | .selftestShort sq e m => Sys2Proof.Machine.execSelftestShort sq e m s
  | .selftestExtended sq e m => Sys2Proof.Machine.execSelftestExtended sq e m s
  | .selftestStop sq e m => Sys2Proof.Machine.execSelftestStop sq e m s
  | .fwdownload sq e m => Sys2Proof.Machine.execFwdownload sq e m s
  | .fwverify sq e m => Sys2Proof.Machine.execFwverify sq e m s
  | .fwactivateReset sq e m => Sys2Proof.Machine.execFwactivateReset sq e m s
  | .fwactivateLive sq e m => Sys2Proof.Machine.execFwactivateLive sq e m s
  | .fwconfirm sq e m => Sys2Proof.Machine.execFwconfirm sq e m s
  | .sanitize sq e m => Sys2Proof.Machine.execSanitize sq e m s
  | .identify sq e m => Sys2Proof.Machine.execIdentify sq e m s
  | .sqeFetchIssue sq n catchUp => Sys2Proof.Machine.execSqeFetchIssue sq n catchUp s
  | .sqeArrival sq entries => Sys2Proof.Machine.execSqeArrival sq entries s
  | .dominoResolve sq tag => Sys2Proof.Machine.execDominoResolve sq tag s
  | .barrierRelease sq tag => Sys2Proof.Machine.execBarrierRelease sq tag s
  | .dedupRepeatRelease sq tag => Sys2Proof.Machine.execDedupRepeatRelease sq tag s
  | .windowEntryExpiry => Sys2Proof.Machine.execWindowEntryExpiry s
  | .valueDataArrival sq tag data => Sys2Proof.Machine.execValueDataArrival sq tag data s
  | .rdmaReadRefused sq tag => Sys2Proof.Machine.execRdmaReadRefused sq tag s
  | .cipherPreempt digest cls ctx => Sys2Proof.Machine.execCipherPreempt digest cls ctx s
  | .chunkProgramComplete recId chunk ok loc => Sys2Proof.Machine.execChunkProgramComplete recId chunk ok loc s
  | .packWindowExpiry => Sys2Proof.Machine.execPackWindowExpiry s
  | .packProgramComplete pack ok loc => Sys2Proof.Machine.execPackProgramComplete pack ok loc s
  | .journalProgramTimer => Sys2Proof.Machine.execJournalProgramTimer s
  | .journalProgramComplete => Sys2Proof.Machine.execJournalProgramComplete s
  | .admission => Sys2Proof.Machine.execAdmission s
  | .pacedAdmission => Sys2Proof.Machine.execPacedAdmission s
  | .turn sq tag => Sys2Proof.Machine.execTurn sq tag s
  | .settle sq tag => Sys2Proof.Machine.execSettle sq tag s
  | .discardedSettle sq tag => Sys2Proof.Machine.execDiscardedSettle sq tag s
  | .abortedSettle sq tag => Sys2Proof.Machine.execAbortedSettle sq tag s
  | .cqeWrite sq tag => Sys2Proof.Machine.execCqeWrite sq tag s
  | .notificationTimer cq => Sys2Proof.Machine.execNotificationTimer cq s
  | .errorRecordWrite sq => Sys2Proof.Machine.execErrorRecordWrite sq s
  | .eventCqeRelease conn => Sys2Proof.Machine.execEventCqeRelease conn s
  | .watchCheck => Sys2Proof.Machine.execWatchCheck s
  | .cmReq r => Sys2Proof.Machine.execCmReq r s
  | .cmRtu conn => Sys2Proof.Machine.execCmRtu conn s
  | .cmDreq conn => Sys2Proof.Machine.execCmDreq conn s
  | .cmLap conn p => Sys2Proof.Machine.execCmLap conn p s
  | .hello conn data => Sys2Proof.Machine.execHello conn data s
  | .helloTimeout conn => Sys2Proof.Machine.execHelloTimeout conn s
  | .sendAfterHello conn => Sys2Proof.Machine.execSendAfterHello conn s
  | .sqDoorbell conn off data => Sys2Proof.Machine.execSqDoorbell conn off data s
  | .cqDoorbell conn off data => Sys2Proof.Machine.execCqDoorbell conn off data s
  | .invalidRequest conn opcode remoteAccess => Sys2Proof.Machine.execInvalidRequest conn opcode remoteAccess s
  | .roceAck conn psn => Sys2Proof.Machine.execRoceAck conn psn s
  | .nakSequence conn psn => Sys2Proof.Machine.execNakSequence conn psn s
  | .rnrNak conn psn => Sys2Proof.Machine.execRnrNak conn psn s
  | .ackTimeout conn => Sys2Proof.Machine.execAckTimeout conn s
  | .duplicateRequest conn psn ahead => Sys2Proof.Machine.execDuplicateRequest conn psn ahead s
  | .connectionFree conn => Sys2Proof.Machine.execConnectionFree conn s
  | .ceMarkedPacket conn => Sys2Proof.Machine.execCeMarkedPacket conn s
  | .cnpReceive conn => Sys2Proof.Machine.execCnpReceive conn s
  | .rateRecoveryTimer conn => Sys2Proof.Machine.execRateRecoveryTimer conn s
  | .alternatePathPacket conn => Sys2Proof.Machine.execAlternatePathPacket conn s
  | .nextHopRefresh => Sys2Proof.Machine.execNextHopRefresh s
  | .frameReceive port frame fcsOk icrcOk => Sys2Proof.Machine.execFrameReceive port frame fcsOk icrcOk s
  | .arpRequest port ip mac target => Sys2Proof.Machine.execArpRequest port ip mac target s
  | .neighborSolicitation port ip mac target => Sys2Proof.Machine.execNeighborSolicitation port ip mac target s
  | .icmpEcho port ip mac payload => Sys2Proof.Machine.execIcmpEcho port ip mac payload s
  | .addressResolutionRetry port ip => Sys2Proof.Machine.execAddressResolutionRetry port ip s
  | .linkUp port mode fec => Sys2Proof.Machine.execLinkUp port mode fec s
  | .linkDown port => Sys2Proof.Machine.execLinkDown port s
  | .pauseReceive port f => Sys2Proof.Machine.execPauseReceive port f s
  | .pauseExpiry port => Sys2Proof.Machine.execPauseExpiry port s
  | .pauseRefreshTimer port => Sys2Proof.Machine.execPauseRefreshTimer port s
  | .pauseRelease port fill => Sys2Proof.Machine.execPauseRelease port fill s
  | .netPausestorm port => Sys2Proof.Machine.execNetPausestorm port s
  | .pausestormEnd port => Sys2Proof.Machine.execPausestormEnd port s
  | .txUnderrun port => Sys2Proof.Machine.execTxUnderrun port s
  | .cutThroughDecay port => Sys2Proof.Machine.execCutThroughDecay port s
  | .wakeFrame frame fcsOk => Sys2Proof.Machine.execWakeFrame frame fcsOk s
  | .jackLockEnd => Sys2Proof.Machine.execJackLockEnd s
  | .jackLinkRetry up => Sys2Proof.Machine.execJackLinkRetry up s
  | .linkRestart p port v => Sys2Proof.Machine.execLinkRestart p port v s
  | .filterLoad p port => Sys2Proof.Machine.execFilterLoad p port s
  | .filterFetch p port => Sys2Proof.Machine.execFilterFetch p port s
  | .maxfrmWrite p port v => Sys2Proof.Machine.execMaxfrmWrite p port v s
  | .addressWrite p port off v => Sys2Proof.Machine.execAddressWrite p port off v s
  | .wakecodeWrite p hi v => Sys2Proof.Machine.execWakecodeWrite p hi v s
  | .connHold p => Sys2Proof.Machine.execConnHold p s
  | .connProvision p => Sys2Proof.Machine.execConnProvision p s
  | .connClose p => Sys2Proof.Machine.execConnClose p s
  | .connRelease p => Sys2Proof.Machine.execConnRelease p s
  | .altPathArm p => Sys2Proof.Machine.execAltPathArm p s
  | .hwmclr p => Sys2Proof.Machine.execHwmclr p s
  | .clkmstWrite p v => Sys2Proof.Machine.execClkmstWrite p v s
  | .clockSampleEnd present => Sys2Proof.Machine.execClockSampleEnd present s
  | .cascadeEnable p v => Sys2Proof.Machine.execCascadeEnable p v s
  | .ringJoin => Sys2Proof.Machine.execRingJoin s
  | .rollnow p => Sys2Proof.Machine.execRollnow p s
  | .rollCallTimer => Sys2Proof.Machine.execRollCallTimer s
  | .arbitrationStart => Sys2Proof.Machine.execArbitrationStart s
  | .pass1Return roll seq mismatch slots latency => Sys2Proof.Machine.execPass1Return roll seq mismatch slots latency s
  | .pass2Receive roll void seq mismatch slots win valid => Sys2Proof.Machine.execPass2Receive roll void seq mismatch slots win valid s
  | .cascClkLoss => Sys2Proof.Machine.execCascClkLoss s
  | .cscSyncto => Sys2Proof.Machine.execCscSyncto s
  | .codewordRead sq tag cw loc ok weak tagOk => Sys2Proof.Machine.execCodewordRead sq tag cw loc ok weak tagOk s
  | .ladderStepComplete sq tag ok r => Sys2Proof.Machine.execLadderStepComplete sq tag ok r s
  | .rebuildEnd ks => Sys2Proof.Machine.execRebuildEnd ks s
  | .segmentRefresh seg target => Sys2Proof.Machine.execSegmentRefresh seg target s
  | .schedulingEpoch => Sys2Proof.Machine.execSchedulingEpoch s
  | .fold seg target => Sys2Proof.Machine.execFold seg target s
  | .gcCopyProgrammed src target ok loc => Sys2Proof.Machine.execGcCopyProgrammed src target ok loc s
  | .gcMapCommit src => Sys2Proof.Machine.execGcMapCommit src s
  | .gcReclaimRecord src => Sys2Proof.Machine.execGcReclaimRecord src s
  | .blockEraseComplete src ok loc => Sys2Proof.Machine.execBlockEraseComplete src ok loc s
  | .spareRebuildEnd channel => Sys2Proof.Machine.execSpareRebuildEnd channel s
  | .channelRetrainComplete channel result => Sys2Proof.Machine.execChannelRetrainComplete channel result s
  | .scrubPassStart => Sys2Proof.Machine.execScrubPassStart s
  | .scrubPassEnd entries => Sys2Proof.Machine.execScrubPassEnd entries s
  | .scrubDeferral => Sys2Proof.Machine.execScrubDeferral s
  | .scrubNow p => Sys2Proof.Machine.execScrubNow p s
  | .mainPowerLoss f => Sys2Proof.Machine.execMainPowerLoss f s
  | .pwrMainLow mv => Sys2Proof.Machine.execPwrMainLow mv s
  | .measurementRoundStart => Sys2Proof.Machine.execMeasurementRoundStart s
  | .sectionDischargeDone dtUs esr => Sys2Proof.Machine.execSectionDischargeDone dtUs esr s
  | .sectionRechargeDone => Sys2Proof.Machine.execSectionRechargeDone s
  | .sectionChargeTimeout n => Sys2Proof.Machine.execSectionChargeTimeout n s
  | .sectionShort n => Sys2Proof.Machine.execSectionShort n s
  | .bankCharged => Sys2Proof.Machine.execBankCharged s
  | .sectionIsolateCmd p v => Sys2Proof.Machine.execSectionIsolateCmd p v s
  | .measureNow p => Sys2Proof.Machine.execMeasureNow p s
  | .stagecapWrite p v => Sys2Proof.Machine.execStagecapWrite p v s
  | .pwrCmdMode p v => Sys2Proof.Machine.execPwrCmdMode p v s
  | .pwrCmdCap p v => Sys2Proof.Machine.execPwrCmdCap p v s
  | .autoIdle => Sys2Proof.Machine.execAutoIdle s
  | .idleEntryDone => Sys2Proof.Machine.execIdleEntryDone s
  | .idleExitDone => Sys2Proof.Machine.execIdleExitDone s
  | .parkDrainDone => Sys2Proof.Machine.execParkDrainDone s
  | .parkPowerDown => Sys2Proof.Machine.execParkPowerDown s
  | .wakePin => Sys2Proof.Machine.execWakePin s
  | .rtcAlarm => Sys2Proof.Machine.execRtcAlarm s
  | .rtcScrubWake => Sys2Proof.Machine.execRtcScrubWake s
  | .powerGrant => Sys2Proof.Machine.execPowerGrant s
  | .resumeDone => Sys2Proof.Machine.execResumeDone s
  | .pwrGoodLow => Sys2Proof.Machine.execPwrGoodLow s
  | .thermalWarn temp => Sys2Proof.Machine.execThermalWarn temp s
  | .thermalRecover temp => Sys2Proof.Machine.execThermalRecover temp s
  | .thermalShutdown temp f => Sys2Proof.Machine.execThermalShutdown temp f s
  | .resetAssert f => Sys2Proof.Machine.execResetAssert f s
  | .auxRise slot => Sys2Proof.Machine.execAuxRise slot s
  | .auxLoss => Sys2Proof.Machine.execAuxLoss s
  | .bootEntry => Sys2Proof.Machine.execBootEntry s
  | .boot b => Sys2Proof.Machine.execBoot b s
  | .replayDone ms => Sys2Proof.Machine.execReplayDone ms s
  | .trialTimeout => Sys2Proof.Machine.execTrialTimeout s
  | .updRollback p v => Sys2Proof.Machine.execUpdRollback p v s
  | .sanitizeStepComplete retired => Sys2Proof.Machine.execSanitizeStepComplete retired s
  | .selftestUnit u => Sys2Proof.Machine.execSelftestUnit u s
  | .actCoreReplace p v => Sys2Proof.Machine.execActCoreReplace p v s
  | .actTileFence p v => Sys2Proof.Machine.execActTileFence p v s
  | .actDieRetire p v => Sys2Proof.Machine.execActDieRetire p v s
  | .actDieRecalibrate p v => Sys2Proof.Machine.execActDieRecalibrate p v s
  | .actLaneRetrain p v => Sys2Proof.Machine.execActLaneRetrain p v s
  | .islFence p v => Sys2Proof.Machine.execIslFence p v s
  | .islRelease p v => Sys2Proof.Machine.execIslRelease p v s
  | .islReset p v => Sys2Proof.Machine.execIslReset p v s
  | .coreFailure core => Sys2Proof.Machine.execCoreFailure core s
  | .liveActionEnd serial ok stallUs => Sys2Proof.Machine.execLiveActionEnd serial ok stallUs s
  | .katRound aesFail digFail done => Sys2Proof.Machine.execKatRound aesFail digFail done s
  | .katNow p => Sys2Proof.Machine.execKatNow p s
  | .cryBusError core => Sys2Proof.Machine.execCryBusError core s
  | .cryVoltageAlarm => Sys2Proof.Machine.execCryVoltageAlarm s
  | .cryClockAlarm => Sys2Proof.Machine.execCryClockAlarm s
  | .cryTamperAlarm => Sys2Proof.Machine.execCryTamperAlarm s
  | .cryKeysRestored => Sys2Proof.Machine.execCryKeysRestored s
  | .blobLoad p => Sys2Proof.Machine.execBlobLoad p s
  | .digStart p v => Sys2Proof.Machine.execDigStart p v s
  | .digPush p v => Sys2Proof.Machine.execDigPush p v s
  | .digLast p v => Sys2Proof.Machine.execDigLast p v s
  | .digDone ctx => Sys2Proof.Machine.execDigDone ctx s
  | .dramUncorrectable ch sub region addr holds mirrorOk => Sys2Proof.Machine.execDramUncorrectable ch sub region addr holds mirrorOk s
  | .parityAlert ch sub => Sys2Proof.Machine.execParityAlert ch sub s
  | .replayComplete ch ok stagedLost => Sys2Proof.Machine.execReplayComplete ch ok stagedLost s
  | .patrolTimer => Sys2Proof.Machine.execPatrolTimer s
  | .patrolStart p => Sys2Proof.Machine.execPatrolStart p s
  | .dramRetrainTimer ch => Sys2Proof.Machine.execDramRetrainTimer ch s
  | .dramRetrain p => Sys2Proof.Machine.execDramRetrain p s
  | .trainingComplete ch => Sys2Proof.Machine.execTrainingComplete ch s
  | .speedSwitchDone ch => Sys2Proof.Machine.execSpeedSwitchDone ch s
  | .recordMove => Sys2Proof.Machine.execRecordMove s
  | .freezeTimeout => Sys2Proof.Machine.execFreezeTimeout s
  | .lifeClockJournal => Sys2Proof.Machine.execLifeClockJournal s
  | .timeSet p v => Sys2Proof.Machine.execTimeSet p v s
  | .mctpPacket packet => Sys2Proof.Machine.execMctpPacket packet s
  | .setEndpointId eid op => Sys2Proof.Machine.execSetEndpointId eid op s
  | .getEndpointId => Sys2Proof.Machine.execGetEndpointId s
  | .getEndpointUuid => Sys2Proof.Machine.execGetEndpointUuid s
  | .getMctpVersionSupport type => Sys2Proof.Machine.execGetMctpVersionSupport type s
  | .getMessageTypeSupport => Sys2Proof.Machine.execGetMessageTypeSupport s
  | .getVendorMessageSupport sel => Sys2Proof.Machine.execGetVendorMessageSupport sel s
  | .mctpRead off count => Sys2Proof.Machine.execMctpRead off count s
  | .mctpWrite off count data => Sys2Proof.Machine.execMctpWrite off count data s
  | .status => Sys2Proof.Machine.execStatus s
  | .areaErase area => Sys2Proof.Machine.execAreaErase area s
  | .areaEraseComplete => Sys2Proof.Machine.execAreaEraseComplete s
  | .areaWrite area off data => Sys2Proof.Machine.execAreaWrite area off data s
  | .slotVerify slot => Sys2Proof.Machine.execSlotVerify slot s
  | .slotInstall slot => Sys2Proof.Machine.execSlotInstall slot s
  | .sessionChallenge => Sys2Proof.Machine.execSessionChallenge s
  | .sessionOpen request => Sys2Proof.Machine.execSessionOpen request s
  | .sessionSealed request => Sys2Proof.Machine.execSessionSealed request s
  | .sessionClose sid => Sys2Proof.Machine.execSessionClose sid s
  | .sessionTimeout => Sys2Proof.Machine.execSessionTimeout s
  | .smbusTimeout => Sys2Proof.Machine.execSmbusTimeout s
  | .responseRetry => Sys2Proof.Machine.execResponseRetry s
  | .alertResponse => Sys2Proof.Machine.execAlertResponse s
  | .selectWrite p off v => Sys2Proof.Machine.execSelectWrite p off v s
  | .pfcfgWrite p v => Sys2Proof.Machine.execPfcfgWrite p v s
  | .tilecfgWrite p v => Sys2Proof.Machine.execTilecfgWrite p v s
  | .halfLatchRead p off => Sys2Proof.Machine.execHalfLatchRead p off s
  | .registerAccessTimeout p off => Sys2Proof.Machine.execRegisterAccessTimeout p off s
  | .registerWrite p off v => Sys2Proof.Machine.execRegisterWrite p off v s
  | .rdmaWriteRefused conn psn => Sys2Proof.Machine.execRdmaWriteRefused conn psn s
  | .sectionMeasurementStart vc => Sys2Proof.Machine.execSectionMeasurementStart vc s
  | .configurationStoreWrite => Sys2Proof.Machine.execConfigurationStoreWrite s
  | .patrolEnd => Sys2Proof.Machine.execPatrolEnd s
  | .auxBelowRange => Sys2Proof.Machine.execAuxBelowRange s
  | .netFecdeg port lane => Sys2Proof.Machine.execNetFecdeg port lane s

end Sys2Proof.Machine
end

