-- ==== Sys2Proof/Machine/Tick.lean ====
section
/-! DEFINITION. One tick of 40 ns: the clocks, posted register writes, the pacing bucket, receive buffers, idle slots of the tiles
(01, 08, 09, 11, 17). -/

namespace Sys2Proof.Machine

/-- Nanoseconds of a tick. -/
def tickNs : Nat := 40

/-- The always-on clocks have a supply. -/
def Pwr.clocked (p : Pwr) : Bool := p.aux || !(p.cur == 0 || p.cur == 8)

/-- The life clock runs: outside RESET and PARKED (R613). -/
def Pwr.alive (p : Pwr) : Bool := p.cur != 0 && p.cur != 8

/-- The wall clock's gain in one tick, `free` naming it: nominal but for its drift, and never further off than 50 ppm of the time
since it was set (R614). -/
def Clocks.wallTick (free : Nat) (c : Clocks) : Clocks :=
  let run := c.wallRun + tickNs
  let bound : Int := run / 20000
  let err := max (-bound) (min bound (c.wallErr + Config.wallDrift free))
  { c with wall := (((c.wall : Int) + tickNs + (err - c.wallErr)).toNat) % 2 ^ 64, wallRun := run, wallErr := err }

/-- One tick of the clocks; `alive` lets the life clock run. -/
def Clocks.tick (alive : Bool) (free : Nat) (c : Clocks) : Clocks :=
  let c := if alive then { c with life := c.life + tickNs } else c
  let c := if c.wallSet then c.wallTick free else c
  let ns := c.instNs + tickNs
  { c with installed := c.installed + ns / 1000000000, instNs := ns % 1000000000 }

/-- Bytes that the accrual rate has given by life clock `t` (R369, R370). -/
def accrued (t : Nat) : Nat := 72 * pib * t / (1262304000 * 1000000000)

/-- The bucket fills at the accrual rate while writes are paced. -/
def Med.fillBucket (t : Nat) (m : Med) : Med :=
  if m.pacing then { m with bucket := min (2 ^ 30) (m.bucket + (accrued (t + tickNs) - accrued t)) } else m

/-- Bytes that a tick takes out of a port's receive buffers. -/
def rxDrain : Nat := 2000

/-- The receive queues of a port are served for a tick. (log 52 DESIGN CHOICE) -/
def Drive.drainRx (p : Port) (d : Drive) : Drive := if (d.port p).rxq.isEmpty then d else d.serve p ((d.port p).fill - rxDrain)

/-- The tick of the tiles; a role change that leaves no quad for pattern work is answered as a fence is (R313). -/
def Drive.tickTiles (d : Drive) : Drive :=
  let e := d.onIdx Idx.tick
  if e.idx.pquad != d.idx.pquad && e.idx.workQuad.isNone then e.patternMove else e

/-- The measured input power and case temperature (R537, R645): open values. (log 137 DESIGN CHOICE) -/
def Pwr.tick (t : Nat) (p : Pwr) : Pwr :=
  { p.sensed t (Config.caseTemp t) with peak := (Config.inputPower t).1 % 65536, avg := (Config.inputPower t).2 % 65536 }

def Drive.tick (d : Drive) : Drive :=
  let alive := d.pwr.alive
  let t := d.clk.life
  let d := d.drainAll
  let d := if d.pwr.clocked then { d with clk := d.clk.tick alive d.free, free := d.free + 1 } else d
  let d := if alive then
      (({ d with med := d.med.fillBucket t, pwr := d.pwr.tick t } : Drive).drainRx .a).drainRx .b |>.sendAll
    else d
  let d := if alive && d.islState 7 == 0 && !d.cry.ctxs.isEmpty then d.schedule else d
  let d := if alive && d.islState 8 == 0 then d.onDmc fun m => m.tick d.clk.life else d
  let d := if alive && d.islState 6 == 0 then d.tickTiles else d
  if d.csc.due then d.rollCall false else d

/-- One tick: that of the drive, then the ends of retirements of DRAM channels (R502). -/
def State.tick (s : State) : State := ({ s with d := s.d.tick } : State).retireEnds

end Sys2Proof.Machine
end

