-- ==== Sys2Proof/Safety.lean ====
section
/-! DEFINITION. What claims about the block are stated in: the parts of the drive and what a command leaves alone, the well-formed
state, occurrences of events, a command at its turn. -/

namespace Sys2Proof.Machine

/-- The parts of the drive: the fields of `Drive` by name. -/
inductive Part where
  | kvx | hq | xpt | evr | clk | idx | csc | med | bank | portA | portB | jack | cry | dmc | pwr | upd | mgmt | sys | free
  deriving DecidableEq, Repr

/-- Two drives have the same part. -/
def Drive.Agrees (a b : Drive) : Part → Prop
  | .kvx => a.kvx = b.kvx
  | .hq => a.hq = b.hq
  | .xpt => a.xpt = b.xpt
  | .evr => a.evr = b.evr
  | .clk => a.clk = b.clk
  | .idx => a.idx = b.idx
  | .csc => a.csc = b.csc
  | .med => a.med = b.med
  | .bank => a.bank = b.bank
  | .portA => a.portA = b.portA
  | .portB => a.portB = b.portB
  | .jack => a.jack = b.jack
  | .cry => a.cry = b.cry
  | .dmc => a.dmc = b.dmc
  | .pwr => a.pwr = b.pwr
  | .upd => a.upd = b.upd
  | .mgmt => a.mgmt = b.mgmt
  | .sys => a.sys = b.sys
  | .free => a.free = b.free

/-- Every part outside `l` is the same in `a` and `b`. -/
structure Drive.SameBut (l : List Part) (a b : Drive) : Prop where
  agrees : ∀ p, p ∉ l → a.Agrees b p

/-- The command queue, the configuration flash with the fuses, and every part of the drive outside `l` are the same. -/
structure State.SameBut (l : List Part) (s t : State) : Prop where
  pending : t.pending = s.pending
  nv      : t.nv = s.nv
  drive   : s.d.SameBut l t.d

/-- The state is well formed: the configuration flash is in canonical form and at most 256 fuses are blown (R538, R545). -/
def State.Wf (s : State) : Prop := s.nv.wf = true

/-- Occurrences of an event source so far (R593). -/
def Drive.events (n : Nat) (d : Drive) : Nat := (d.evr.src n).count

/-- The parts that an occurrence of an event may change: the sources and the recorder, the event CQEs of its connections. -/
def eventParts : List Part := [.evr, .xpt, .hq]

/-- The part that a port is. -/
def portPart : Port → Part
  | .a => .portA
  | .b => .portB

/-- A command about port `p` has its effect: besides the port, only what an occurrence of an event may change. -/
def portParts (p : Port) : List Part := portPart p :: eventParts

/-- A frame is dropped (R425, R426): statistics counter `i` of port `p` counts it, and the port changes in no more than its statistics. -/
structure Drive.Drops (p : Port) (i : Nat) (a b : Drive) : Prop where
  port  : b.port p = { a.port p with stats := (b.port p).stats, half := (b.port p).half }
  count : lookupD (b.port p).stats i 0 = (lookupD (a.port p).stats i 0 + 1) % 2 ^ 48
  frame : a.SameBut (portParts p) b

/-- Command `o` of SQ `q` has one context (R34). -/
def Drive.soleCtx (q o : Nat) (d : Drive) : Bool := (d.kvx.ctxs.filter fun x => x.sq == q && x.ord == o).length == 1

/-- Command `c` takes its turn now (R220-R225): the commit rule holds, no failure is recorded, nothing holds it back, no core that it
needs is missing (R483). -/
def Drive.canTurn (c : Ctx) (d : Drive) : Bool :=
  d.soleCtx c.sq c.ord && d.turnAllowed c && c.fail.isNone && !d.heldBack c && (adminOp c.op || !d.coreless c)

/-- The command that entry `e` with opcode `op` at the head of SQ `q` makes, when it is fetched at once, its data arrives from host
memory `m` and its turn comes: its context then, and the state just before the turn. None while it has to wait. -/
def State.atTurn (q op : Nat) (e : Sqe) (m : HostMem) (s : State) : Option (Ctx × State) :=
  let f := s.d.fetchOne q
  match f.1 with
  | none => none
  | some o =>
    let d := ((f.2.arrive q o op e).wake).feed q o m readFuel
    match d.ctx? q o with
    | none => none
    | some c => if d.canTurn c && c.op == op && c.e == e then some (c, { s with d := d }) else none

/-- Command `c` of SQ `q` with tag `tag` and opcode `op` has waited for its turn, which it takes now. -/
def State.turnIs (q tag op : Nat) (c : Ctx) (s : State) : Prop :=
  s.d.find? q tag (fun x => s.d.turnAllowed x) = some c ∧ s.d.canTurn c = true ∧ c.op = op

/-- The parts that a command which settles may change: its contexts and lists, its search slot, a freeze, the caches and the
requests to DRAM, events. -/
def settleParts : List Part := [.kvx, .med, .idx, .dmc] ++ eventParts

/-- Command `c` has settled with result `r` (R222). -/
def Drive.answers (c : Ctx) (r : Res) (d : Drive) : Prop := ∃ x, d.ctx? c.sq c.ord = some x ∧ x.settled = true ∧ x.res = r

/-- Nothing that is stored changes: the stored state, the commit records, the turn serial, the watches. -/
structure Drive.Kept (a b : Drive) : Prop where
  store   : b.kvx.store = a.kvx.store
  log     : b.kvx.log = a.kvx.log
  serial  : b.kvx.turnSer = a.kvx.turnSer
  watches : b.kvx.watches = a.kvx.watches

/-- Command `c` has settled with result `r`; nothing stored changes, and besides `l` only what settling may change. -/
structure State.Answers (c : Ctx) (r : Res) (l : List Part) (s t : State) : Prop where
  answer : t.d.answers c r
  kept   : s.d.Kept t.d
  frame  : s.SameBut (l ++ settleParts) t

/-- Command `c` has settled with status `st`; nothing stored changes. -/
structure State.EndsWith (c : Ctx) (st : Nat) (s t : State) : Prop where
  answer : ∃ x, t.d.ctx? c.sq c.ord = some x ∧ x.settled = true ∧ x.res.status = st
  kept   : s.d.Kept t.d
  frame  : s.SameBut (.free :: settleParts) t

/-- A request as it is made: whether its last packet has left the drive, and how far it is acknowledged, are apart. -/
def Req.unsent (r : Req) : Req := { r with wire := false, got := 0 }

/-- Connection `c` has made the requests `rs` (R90, R117), behind those it had made. -/
def Conn.Made (a b : Conn) (rs : List Req) : Prop := b.unacked.map Req.unsent = a.unacked.map Req.unsent ++ rs.map Req.unsent

/-- Connection `c` has handed packet `p` to its port, or will when flow control, the rate limit and its path let it (R435, R442). -/
def Drive.HasSent (c : Nat) (p : Packet) (d : Drive) : Prop := ∃ x, d.conn? c = some x ∧ (p ∈ x.txq ∨ (x.path.portB, c, p) ∈ d.xpt.tx)

/-- Everything unacknowledged of connection `c` has been handed to its port once more, in PSN order, or will be (R440). -/
def Drive.Resent (c : Nat) (d : Drive) : Prop :=
  let plain := fun (p : Packet) => { p with again := false }
  ∃ x gone rest, d.conn? c = some x ∧ (∀ p ∈ gone, (x.path.portB, c, p) ∈ d.xpt.tx) ∧
    (gone ++ x.txq).map plain = rest ++ (x.unacked.flatMap (Req.packets (mtuBytes x.path.pmtu))).map plain

/-- The drive has sent an RDMA WRITE of `bytes` for command `c` (R117). -/
def Drive.Wrote (c : Ctx) (addr rkey : Nat) (bytes : Bytes) (d : Drive) : Prop :=
  ∃ x, d.conn? c.conn = some x ∧
    ∃ r ∈ x.unacked, r.kind = .write ∧ r.what = .value c.sq c.ord ∧ r.addr = addr ∧ r.rkey = rkey ∧ r.data = bytes

/-- The drive has sent `data` to the buffers of `c`, in list order (R113, R146). -/
def Drive.Sends (c : Ctx) (data : Bytes) (d : Drive) : Prop := ∀ p ∈ pieces c.out 0 data, d.Wrote c p.1 p.2.1 p.2.2

/-- Command `c` has had its read point (R221) with result `r` and the bytes `data` to return; nothing stored changes. -/
structure State.Returns (c : Ctx) (r : Res) (data : Bytes) (s t : State) : Prop where
  answer : ∃ x, t.d.ctx? c.sq c.ord = some x ∧ x.turned = true ∧ x.res = r ∧ x.data = data
  kept   : s.d.Kept t.d
  frame  : s.SameBut (.csc :: settleParts) t

/-- Command `c` returns a structure (R163): `data` as far as its buffer holds is sent, and it will report `r`. -/
structure State.Gives (c : Ctx) (r : Res) (data : Bytes) (s t : State) : Prop where
  answer : ∃ x, t.d.ctx? c.sq c.ord = some x ∧ x.turned = true ∧ x.res = r
  sent   : t.d.Sends c (data.take c.e.vlen)
  kept   : s.d.Kept t.d
  frame  : s.SameBut settleParts t

/-- Command `c` has committed the effects `effs` under the next turn serial and settled with result `r` (R29, R406). -/
structure State.Commits (c : Ctx) (effs : List Effect) (r : Res) (s t : State) : Prop where
  serial : t.d.kvx.turnSer = s.d.kvx.turnSer + 1
  store  : t.d.kvx.store = s.d.kvx.store.applyAll (s.d.kvx.turnSer + 1) effs
  log    : ∃ x, t.d.kvx.log = s.d.kvx.log ++ [x] ∧ x.serial = s.d.kvx.turnSer + 1 ∧ x.sq = c.sq ∧ x.ord = c.ord ∧ x.effs = effs
  answer : t.d.answers c r
  frame  : s.SameBut ([.bank, .cry, .free] ++ settleParts) t

/-- Nothing but its operands decides what the write of `c` does at its turn: the mode, a SANITIZE, the queue of watch checks and lost index
pages let it be (R312, R327, R525, R585). -/
def Drive.writeOpen (c : Ctx) (d : Drive) : Bool :=
  !d.checksFull (d.writeOps c) && (d.modeFault c.op 10).isNone && (d.sanitizeFault c.op 10).isNone && (d.writeOps c).all fun o => (d.indexLost o.ks o.key).isNone

/-- Its operations succeed in list order, and quotas, free space, index room, pace and the energy ledger let the write commit now
(R84, R87, R182, R295, R355, R365, R370, R394). -/
def Drive.writeRoom (c : Ctx) (d : Drive) : Bool :=
  let s := d.kvx.store
  let d := d.lookups (d.writeOps c)
  let p := d.placed c
  let ops := p.1
  let grown := d.grow (appendLens s ops [])
  match evalOps (d.kvx.turnSer + 1) d.clk.wallTime ops 0 s with
  | .error _ => false
  | .ok (s', _) =>
    (quotaFault c.quotaOf s s' (ops.map (·.ks))).isNone && !spaceFault d.med.capacity s s' && !indexFault s s'
      && (d.writeWaits ops p.2.1 (sumBy (hostBytes s) ops) c).isNone && grown.ledger c (grown.chargeOf c ops) != .wait

/-- The key that command `c` names has this version now. -/
def State.held (c : Ctx) (s : State) : Option Rec := s.d.kvx.store.get? c.e.ksId (c.key.getD [])

/-- The write of `c` has committed with `value` for its key (R29, R57, R58, R142, R143): its key has a new version, with its digest
when it asked for one, and the time; every other key is as it was; a commit record names the command; it settled with SUCCESS and
reports the version or its token. -/
structure State.Stored (c : Ctx) (value : Bytes) (s t : State) : Prop where
  stored  : ∃ r, t.held c = some r ∧ r.value = value ∧ r.wtime = s.d.clk.wallTime ∧
    r.digest = (if c.e.flag 7 then some (sha256 value) else none) ∧
    (∀ o, s.held c = some o → r.version = o.version + 1) ∧
    (∀ k, s.held c = none → s.d.kvx.store.ks? c.e.ksId = some k → r.version = k.hwm + 1)
  others  : ∀ ks key, (ks, key) ≠ (c.e.ksId, c.key.getD []) → t.d.kvx.store.get? ks key = s.d.kvx.store.get? ks key
  log     : ∃ r ∈ t.d.kvx.log, r.serial = s.d.kvx.turnSer + 1 ∧ r.sq = c.sq ∧ r.ord = c.ord
  told    : ∀ r k, t.held c = some r → s.d.kvx.store.ks? c.e.ksId = some k →
    t.d.answers c (t.d.kvx.store.report stSuccess r (k.vclass == .anchored))
  frame   : s.SameBut ([.bank, .free] ++ settleParts) t

/-- The drive to which a register write of path `p` to `off` applies: the management island runs, the writes posted on the path
before it are in effect, the register's island is up (R19-R23). None when the write goes elsewhere. -/
def State.reaches (p : Path) (off : Nat) (s : State) : Option Drive :=
  if s.d.reachable && regOffset off && (s.d.drain p).islState (regIsland off) == 0 && !(s.d.drain p).muted p off then some (s.d.drain p)
  else none

/-- Section `n` leaves service for good with cause `cause` (R403, R404): a new round is due or starts, the section's energy no longer
counts, one `PWR_SECTION` event, one live action of code 0x09. -/
structure Drive.Isolates (n cause : Nat) (a b : Drive) : Prop where
  sects  : ∀ j, b.bank.sects[j]? = a.bank.sects[j]?.map fun x => if j = n then { x with state := 2, cause := cause } else x
  round  : b.bank.again = true ∨ b.bank.round = some 0
  energy : b.bank.first = false → b.bank.emeas = b.bank.energy
  event  : b.events 0x014 = wrap32 (a.events 0x014 + 1)
  action : ∃ x ∈ b.upd.actions, x.serial = a.upd.actSerial + 1 ∧ x.code = 0x09 ∧ x.target = n
  frame  : a.SameBut ([.bank, .upd] ++ eventParts) b

/-- The drive goes from one mode to mode `m` (R537): `PWR_MODE`, `PWR_TRANS`, the effective cap, one `SYS_MODE` event. -/
structure Drive.Enters (m : Nat) (a b : Drive) : Prop where
  cur   : b.pwr.cur = m
  last  : b.pwr.last = if 3 ≤ m ∧ m ≤ 6 then m else a.pwr.last
  trans : b.pwr.trans = wrap32 (a.pwr.trans + 1)
  cap   : b.pwr.capEff = b.pwr.capWant
  event : b.events 0x001 = wrap32 (a.events 0x001 + 1)

/-- A request for mode `m` that R519 and R520 let pass, from another mode. -/
def Drive.mayRequest (m : Nat) (d : Drive) : Prop :=
  m ∈ [3, 4, 5, 6, 7, 8, 0xB] ∧ m ≠ d.pwr.cur ∧ d.pwr.cur ∈ [3, 4, 5, 6, 7, 0xB] ∧
    (d.pwr.cur = 0xB ∧ 2 ≤ d.pwr.roCause → m = 8) ∧
    (m = 7 ∨ m = 8 → d.upd.sanState ≠ 1 ∧ (∀ t ∈ d.upd.tests, t.state ≠ 1) ∧ d.upd.stage ≠ 3 ∧ d.upd.stage ≠ 5) ∧
    (m = 8 → d.pwr.aux = true)

/-- The HOLD-UP sequence with flush `f` has run and the drive is in RESET (R409, R414, R522): two mode changes, nothing of the host's
sessions left, the stored state as it was. -/
structure State.EndsHeldUp (f : Flush) (s t : State) : Prop where
  pending : t.pending = s.pending
  fuses   : t.nv.fuses = s.nv.fuses
  cur     : t.d.pwr.cur = 0
  trans   : t.d.pwr.trans = wrap32 (wrap32 (s.d.pwr.trans + 1) + 1)
  count   : t.d.bank.holdUps = wrap32 (s.d.bank.holdUps + 1)
  sealed  : t.d.bank.sealOk = f.sealed ∧ t.d.bank.ckptOk = f.ckpt
  store   : t.d.kvx.store = s.d.kvx.store
  host    : t.d.kvx.ctxs = [] ∧ t.d.xpt = .reset ∧ t.d.hq = .reset
  kept    : f.sealed = true → ∀ r ∈ t.d.kvx.log, r.journaled = true

/-- A live action is taken up (R575, R589): the next serial, its code, operation, target and initiator; it runs or waits. -/
def Drive.Starts (code op target : Nat) (host : Bool) (a b : Drive) : Prop :=
  b.upd.actSerial = a.upd.actSerial + 1 ∧
    ∃ x ∈ b.upd.actions, x.serial = b.upd.actSerial ∧ x.code = code ∧ x.op = op ∧ x.target = target ∧ x.host = host

/-- The drive has answered message body `x` on the management bus (R636): nothing else has changed. -/
def State.replied (x : Bytes) (s : State) : State :=
  { s with d := { s.d with mgmt := { s.d.mgmt with resp := [x], tries := 0, out := s.d.mgmt.out ++ [x] } } }

/-- Commands other than the host's that may write the configuration flash (R538, R553, R561, R562, R565, R603, R605): records of the
birth area, the configuration store at a loss of power, a park, a step of a sanitize or its own time, the boot record at a BOOT and at the end of a live
action, the recovery commands with the messages that may carry one, and the rows that run turns. -/
def mayWriteFlash : Instr → Bool
  | .recordMove | .configurationStoreWrite | .parkPowerDown | .pwrGoodLow | .scrubPassEnd _ | .sanitizeStepComplete _ | .boot _ | .areaEraseComplete | .turn _ _ | .admission
  | .pacedAdmission | .mctpPacket _ => true
  | .mainPowerLoss _ | .resetAssert _ | .thermalShutdown _ _ | .dramUncorrectable .. | .replayComplete .. => true
  | .liveActionEnd .. | .areaWrite .. | .slotInstall _ | .sessionSealed _ => true
  | _ => false

/-- The host's commands: the rows that fetch an entry from an SQ. -/
def hostCommand : Instr → Bool
  | .get .. | .put .. | .delete .. | .existsKey .. | .getrange .. | .append .. | .cas .. | .tget .. | .batch .. | .scan .. => true
  | .search .. | .find .. | .watch .. | .unwatch .. | .snapshot .. | .snapclose .. | .flush .. | .barrier .. => true
  | .kscreate .. | .ksdelete .. | .ksmodify .. | .qcreate .. | .qdeleteSq .. | .qdeleteCq .. | .qrestartResume .. => true
  | .qrestartDiscard .. | .abort .. | .regRead .. | .regWrite .. | .logread .. | .evfreeze .. | .evthaw .. => true
  | .keyloadSlot .. | .keyloadTenant .. | .tokenKeyRotation .. | .keydropSlot .. | .keydropTenant .. | .setmode .. => true
  | .selftestShort .. | .selftestExtended .. | .selftestStop .. | .fwdownload .. | .fwverify .. | .fwactivateReset .. => true
  | .fwactivateLive .. | .fwconfirm .. | .sanitize .. | .identify .. => true
  | _ => false

/-- Connection `k` is CLOSING (R131): one `CONN_END`; its watches are gone; the stored state is as it was. Where its queue pair is `lost`,
its entries that have not arrived are gone and nothing is outstanding; else its RDMA READs stay outstanding. -/
structure Drive.Closes (k : Nat) (lost : Bool) (a b : Drive) : Prop where
  state : ∃ x, b.conn? k = some x ∧ x.state = .closing ∧ (lost = true → x.dead = true ∧ x.unacked = [])
  event : b.events 0x081 = wrap32 (a.events 0x081 + 1)
  ctxs  : lost = true → ∀ c ∈ b.kvx.ctxs, c.conn = k → c.arrived = true
  reads : lost = false → ∀ r ∈ (a.xpt.conn k).unacked, ∀ n, r.kind = .read n → ∃ x ∈ (b.xpt.conn k).unacked, x.unsent = r.unsent
  watch : ∀ w ∈ b.kvx.watches, w.conn ≠ k
  store : b.kvx.store = a.kvx.store
  frame : a.SameBut ([.kvx, .idx, .dmc] ++ eventParts) b

/-- Connection `k` is migrated to its alternate path (R444): port, address and next hop are the alternate's, one `MIGRATE`, everything
unacknowledged is sent again. -/
structure Drive.Migrates (k : Nat) (a b : Drive) : Prop where
  port  : (b.xpt.conn k).path.portB = (a.xpt.net k).altPortB
  ip    : (b.xpt.conn k).path.rip = (a.xpt.net k).altIp
  mac   : (b.xpt.conn k).path.rmac = (a.xpt.net k).altMac
  state : (b.xpt.conn k).state = (a.xpt.conn k).state
  alt   : (b.xpt.net k).alt = .migrated
  count : b.xpt.migr = wrap32 (a.xpt.migr + 1)
  event : b.events 0x082 = wrap32 (a.events 0x082 + 1)
  sent  : b.Resent k
  frame : a.SameBut eventParts b

end Sys2Proof.Machine
end

