-- ==== Sys2Proof/Certificates/Slice0/Obligations.lean ====
section
/-! DEFINITION. The statements for the provers. -/

open Sys2Proof Sys2Proof.Machine

/-- The measurement rounds of R400-R402, with the disabling test of R397.
The model's choices in it, which no rule of the spec states: what a round measures is an operand of its rows (log 12), a row whose condition
does not hold changes nothing (log 2). -/
def Obligations.MeasurementRounds : Prop :=
  -- a round that is due starts with the first section
  (∀ s : State, (s.d.bank.again = true ∨ s.d.bank.first = false ∧ s.d.bank.lastStart + 600000000000 ≤ s.d.clk.life) →
    s.d.bank.round = none → s.d.pwr.cur ∉ [0, 2, 8, 0xA] →
    exec .measurementRoundStart s = .next { s with d := { s.d with bank := { s.d.bank with
      round := some 0, measuring := false, again := false, early := s.d.bank.chg, lastStart := s.d.clk.life } } }) ∧
  -- no round starts before it is due, while one runs, in a mode without rounds
  (∀ s : State, (s.d.bank.again = false ∧ (s.d.bank.first = true ∨ s.d.clk.life < s.d.bank.lastStart + 600000000000) ∨
      s.d.bank.round ≠ none ∨ s.d.pwr.cur ∈ [0, 2, 8, 0xA]) →
    exec .measurementRoundStart s = .next s) ∧
  -- step 1 of R401: the next section in service leaves the bus
  (∀ (s : State) (k n vc : Nat), s.d.bank.round = some k → s.d.bank.measuring = false → s.d.bank.next k = some n → 132 ≤ vc →
    ∃ d, exec (.sectionMeasurementStart vc) s = .next { s with d := d } ∧
      (∀ j, d.bank.sects[j]? = s.d.bank.sects[j]?.map fun x => if j = n then { x with state := 1, low := 0 } else x) ∧
      d.bank.round = some n ∧ d.bank.measuring = true ∧ d.bank.vcNow = vc ∧
      d.bank.emeas = (if s.d.bank.first then 0 else d.bank.energy) ∧ d.bank.en = s.d.bank.en ∧
      s.d.SameBut (.bank :: eventParts) d) ∧
  -- steps 2 to 4: capacitance in 10 uF, ESR in mOhm
  (∀ (s : State) (n dt esr : Nat), s.d.bank.round = some n → s.d.bank.measuring = true → 110 ≤ dt / 40 → esr ≤ 200 →
    ∃ b : Bank, exec (.sectionDischargeDone dt esr) s = .next { s with d := { s.d with bank := b } } ∧
      (∀ j, b.sects[j]? = s.d.bank.sects[j]?.map fun x =>
        if j = n then { x with dt := dt, cap := min 2047 (dt / 40), esr := esr, vc := s.d.bank.vcNow % 256 } else x) ∧
      b.emeas = s.d.bank.emeas ∧ b.measuring = true ∧ b.round = some n) ∧
  -- step 5: the section is back, the energy is computed again, the round goes on or ends
  (∀ (s : State) (n : Nat), s.d.bank.round = some n → s.d.bank.measuring = true →
    ∃ d, exec .sectionRechargeDone s = .next { s with d := d } ∧
      (∀ j, d.bank.sects[j]? = s.d.bank.sects[j]?.map fun x => if j = n then { x with state := 0 } else x) ∧
      d.bank.measuring = false ∧ (d.bank.first = false → d.bank.emeas = d.bank.energy) ∧
      (∀ m, d.bank.next (n + 1) = some m → d.bank.round = some m) ∧
      (d.bank.next (n + 1) = none → d.bank.first = (s.d.bank.first && s.d.bank.early) ∧ d.bank.lastEnd = some s.d.clk.life) ∧
      (s.d.bank.first = false → s.d.bank.lowE = false → d.bank.energy < 1600 →
        d.bank.en = false ∧ d.bank.lowE = true ∧ d.events 0x010 = wrap32 (s.d.events 0x010 + 1)) ∧
      s.d.SameBut (.bank :: eventParts) d) ∧
  -- the charger reports the bank charged: the first round is due
  (∀ s : State, s.d.bank.chg = true → s.d.pwr.cur ∉ [0, 2, 8, 0xA] → s.d.bank.round = none →
    exec .bankCharged s = .next { s with d := { s.d with bank := { s.d.bank with
      chg := false, bankV := 136, round := some 0, measuring := false, again := false, early := false, lastStart := s.d.clk.life } } })

/-- The six causes of R403.
The model's choices in it, which no rule of the spec states: what the sensors find is an operand of its row (log 12). -/
def Obligations.SectionsIsolated : Prop :=
  (∀ (s : State) (n : Fin 8), (s.d.bank.sect n.val).state ≠ 2 →
    ∃ d, exec (.sectionChargeTimeout n) s = .next { s with d := d } ∧ s.d.Isolates n.val 4 d) ∧
  (∀ (s : State) (n : Fin 8), (s.d.bank.sect n.val).state ≠ 2 → s.d.pwr.cur ≠ 0xA →
    ∃ d, exec (.sectionShort n) s = .next { s with d := d } ∧ s.d.Isolates n.val 6 d) ∧
  (∀ (s : State) (n : Fin 8), (s.d.bank.sect n.val).state = 2 →
    exec (.sectionChargeTimeout n) s = .next s ∧ exec (.sectionShort n) s = .next s) ∧
  (∀ (s : State) (p : Path) (v : Word) (d : Drive), s.reaches p 0x2140 = some d → field v.toNat 8 8 = 0xA5 →
    (d.bank.sect (field v.toNat 0 3)).state ≠ 2 →
    ∃ d', exec (.sectionIsolateCmd p v) s = .next { s with d := d' } ∧ d.Isolates (field v.toNat 0 3) 5 d') ∧
  (∀ (s : State) (p : Path) (v : Word) (d : Drive), s.reaches p 0x2140 = some d →
    field v.toNat 8 8 ≠ 0xA5 ∨ (d.bank.sect (field v.toNat 0 3)).state = 2 →
    exec (.sectionIsolateCmd p v) s = .next { s with d := { d with bank := { d.bank with cmdErr := true } } }) ∧
  (∀ (s : State) (n dt esr : Nat), s.d.bank.round = some n → s.d.bank.measuring = true → n < 8 → (s.d.bank.sect n).state ≠ 2 →
    dt / 40 < 110 ∨ 200 < esr →
    ∃ d, exec (.sectionDischargeDone dt esr) s = .next { s with d := d } ∧
      (∀ j, (d.bank.sects[j]?).map (fun x => (x.state, x.cause)) = (s.d.bank.sects[j]?).map fun x =>
        if j = n then (2, if dt / 40 < 110 then 1 else 2) else (x.state, x.cause)) ∧
      d.events 0x014 = wrap32 (s.d.events 0x014 + 1) ∧ s.d.SameBut ([.bank, .upd] ++ eventParts) d) ∧
  (∀ (s : State) (k n vc : Nat), s.d.bank.round = some k → s.d.bank.measuring = false → s.d.bank.next k = some n → vc < 132 →
    n < s.d.bank.sects.length → 1 ≤ (s.d.bank.sect n).low →
    ∃ d, exec (.sectionMeasurementStart vc) s = .next { s with d := d } ∧
      (∀ j, (d.bank.sects[j]?).map (fun x => (x.state, x.cause)) = (s.d.bank.sects[j]?).map fun x =>
        if j = n then (2, 3) else (x.state, x.cause)) ∧
      d.events 0x014 = wrap32 (s.d.events 0x014 + 1) ∧ s.d.SameBut ([.bank, .upd] ++ eventParts) d)

/-- `PWR_MEASCTL`, `PWR_STAGECAP` and the ledger. R394 is stated in integers: energy in mJ, bytes.
The model's choices in it, which no rule of the spec states: a staging write admitted uses the commit of log entries 33 and 34; register
rows drain posted writes first (log 79). -/
def Obligations.BankRegisters : Prop :=
  (∀ (s : State) (p : Path) (d : Drive), s.reaches p 0x2118 = some d → d.pwr.serving = true →
    ∃ b : Bank, exec (.measureNow p) s = .next { s with d := { d with bank := b } } ∧
      (d.bank.round = none →
        b = { d.bank with round := some 0, measuring := false, again := false, early := d.bank.chg, lastStart := d.clk.life }) ∧
      (d.bank.round ≠ none → b = { d.bank with again := true })) ∧
  (∀ (s : State) (p : Path) (d : Drive) (v : Word), s.reaches p 0x2100 = some d →
    ∃ d', exec (.stagecapWrite p v) s = .next { s with d := d' } ∧
      d'.bank.stageCap = min 4096 (field v.toNat 0 13) ∧ d'.bank.lowE = d.bank.lowE ∧ d'.bank.emeas = d.bank.emeas ∧
      (d'.bank.en = true ↔ 0 < field v.toNat 0 13 ∧ d.bank.lowE = false ∧ d.bank.first = false) ∧
      d'.events 0x010 = d.events 0x010 ∧ d.SameBut (.bank :: eventParts) d') ∧
  (∀ (d : Drive) (c : Ctx) (charge : Nat), d.ledger c charge = .admitted →
    24000 * 2 ^ 30 + 18000 * (1024 * d.kvx.dirtyKib + charge) ≤ 15 * d.bank.emeas * 2 ^ 30 ∧
      1024 * d.kvx.dirtyKib + charge ≤ d.bank.stageCap * 2 ^ 20) ∧
  (∀ (d : Drive) (c : Ctx) (charge : Nat), d.bank.en = true → c.e.mediaAck = false →
    15 * d.bank.emeas * 2 ^ 30 < 24000 * 2 ^ 30 + 18000 * charge ∨ d.bank.stageCap * 2 ^ 20 < charge →
    d.ledger c charge = .unprotected true)

/-- Requests for a mode: `PWR_CMD` and `PWR_AUTOIDLE`.
The model's choices in it, which no rule of the spec states: a change without a row of its own goes through the last ACTIVE mode (log 68),
`PWR_CMD` requests wait in order (log 71), the refusal is recorded at stage 10 (log 17). -/
def Obligations.ModeRequests : Prop :=
  (∀ (s : State) (p : Path) (v : Word) (d : Drive), s.reaches p 0x2004 = some d → field v.toNat 24 8 = 0x4D →
    d.pwr.change = none → d.mayRequest (field v.toNat 0 4) →
    exec (.pwrCmdMode p v) s = .next { s with d := { d with pwr := { d.pwr with
      change := some { target := field v.toNat 0 4, cmd := none, byPwr := true, before := d.pwr.cur, drained := false }
      capSel := if field v.toNat 8 2 = 0 then d.pwr.capSel else field v.toNat 8 2 } } }) ∧
  (∀ (s : State) (p : Path) (v : Word) (d : Drive), s.reaches p 0x2004 = some d → field v.toNat 24 8 = 0x4D →
    d.pwr.change = none → field v.toNat 0 4 = d.pwr.cur → d.pwr.cur ∈ [3, 4, 5, 6, 7, 0xB] →
    exec (.pwrCmdCap p v) s = .next { s with d := { d with pwr := { d.pwr with
      capSel := if field v.toNat 8 2 = 0 then d.pwr.capSel else field v.toNat 8 2, cmdStat := 0, cmdDet := d.pwr.cur } } }) ∧
  (∀ (s : State) (p : Path) (v : Word) (d : Drive), s.reaches p 0x2004 = some d → field v.toNat 24 8 = 0x4D →
    d.pwr.change ≠ none →
    exec (.pwrCmdMode p v) s = .next { s with d := { d with pwr := { d.pwr with
      cmdQ := d.pwr.cmdQ ++ [(field v.toNat 0 4, field v.toNat 8 2)] } } }) ∧
  (∀ (s : State) (p : Path) (v : Word) (d : Drive), s.reaches p 0x2004 = some d → field v.toNat 24 8 ≠ 0x4D →
    exec (.pwrCmdMode p v) s = .next { s with d := { d with pwr := { d.pwr with cmdErr := true } } } ∧
    exec (.pwrCmdCap p v) s = .next { s with d := { d with pwr := { d.pwr with cmdErr := true } } }) ∧
  (∀ s : State, s.d.mayRequest 7 → s.d.pwr.cur ≠ 0xB → s.d.pwr.change = none → s.d.pwr.autoIdle ≠ 0 → s.d.kvx.ctxs = [] →
    s.d.med.working = false → s.d.pwr.idleAt + 1000000000 * s.d.pwr.autoIdle ≤ s.d.clk.life →
    s.d.med.workAt + 1000000000 * s.d.pwr.autoIdle ≤ s.d.clk.life →
    exec .autoIdle s = .next { s with d := { s.d with pwr := { s.d.pwr with
      change := some { target := 7, cmd := none, byPwr := false, before := s.d.pwr.cur, drained := false } } } })

/-- Entry to IDLE and exit from it.
The model's choices in it, which no rule of the spec states: a change is one event and one count (log 68), the first change counted is the
entry into BOOT (log 85). -/
def Obligations.IdleEntryAndExit : Prop :=
  (∀ (s : State) (ch : Change), s.d.pwr.change = some ch → ch.target = 7 → s.d.pwr.cur ∈ [3, 4, 5, 6] → s.d.pwr.cmdQ = [] →
    ∃ d, exec .idleEntryDone s = .next { s with d := d } ∧ s.d.Enters 7 d ∧ d.pwr.change = none ∧
      (∀ x ∈ d.kvx.staged, x.serial = none) ∧ (∀ r ∈ d.kvx.log, r.journaled = true) ∧ d.kvx.store = s.d.kvx.store ∧
      (∀ q o c, ch.cmd = some (q, o) → s.d.ctx? q o = some c → s.d.soleCtx q o = true →
        d.ctx? q o = some { c with res := { c.res with b := leBytes 1 ch.before ++ leBytes 1 7 } })) ∧
  (∀ s : State, s.d.pwr.cur = 7 → s.d.idleLeaves = true → s.d.pwr.change = none →
    ∃ d, exec .idleExitDone s = .next { s with d := d } ∧ s.d.Enters s.d.pwr.last d ∧ d.kvx = s.d.kvx ∧
      s.d.SameBut ([.pwr, .dmc] ++ eventParts) d) ∧
  (∀ (s : State) (ch : Change), s.d.pwr.cur = 7 → s.d.pwr.change = some ch → ch.target = s.d.pwr.last → s.d.pwr.last ∈ [3, 4, 5, 6] →
    s.d.pwr.cmdQ = [] → ch.cmd = none →
    ∃ d, exec .idleExitDone s = .next { s with d := d } ∧ s.d.Enters s.d.pwr.last d ∧ d.pwr.change = none ∧ d.kvx = s.d.kvx ∧
      s.d.SameBut ([.pwr, .dmc] ++ eventParts) d)

/-- The steps of R530, and R536.
The model's choices in it, which no rule of the spec states: the flush of a park is one row (log 12, 70), PARKED keeps the management island
(log 69), volatile slots are emptied (log 73). -/
def Obligations.Parking : Prop :=
  (∀ (s : State) (ch : Change), s.d.pwr.change = some ch → ch.target = 8 → ch.drained = false →
    (∀ c ∈ s.d.kvx.ctxs, some (c.sq, c.ord) = ch.cmd ∨ s.d.cqeDone c = true) →
    ∃ d, exec .parkDrainDone s = .next { s with d := d } ∧ d.pwr.change = some { ch with drained := true, drainAt := s.d.clk.life } ∧
      (∀ x ∈ d.kvx.staged, x.serial = none) ∧ d.kvx.log = [] ∧ d.kvx.base = s.d.kvx.store ∧ d.kvx.store = s.d.kvx.store ∧
      d.clk.lifeJour = s.d.clk.life ∧ d.clk.instJour = s.d.clk.installed) ∧
  (∀ (s : State) (ch : Change), s.d.pwr.change = some ch → ch.drained = true → s.d.pwr.cur ≠ 8 →
    (∀ q o, ch.cmd = some (q, o) → s.d.ctx? q o = none) ∨ ch.drainAt + 10000000 ≤ s.d.clk.life →
    ∃ t, exec .parkPowerDown s = .next t ∧ t.pending = s.pending ∧ t.nv.fuses = s.nv.fuses ∧
      t.d.pwr.cur = 8 ∧ t.d.pwr.change = none ∧ t.d.xpt = .reset ∧ t.d.hq = .reset ∧
      t.d.kvx.ctxs = [] ∧ t.d.kvx.staged = [] ∧ t.d.kvx.log = [] ∧
      t.d.kvx.store = s.d.kvx.store.dropVolatile ∧ t.d.kvx.base = t.d.kvx.store ∧
      t.d.events 0x018 = wrap32 (s.d.events 0x018 + 1)) ∧
  (∀ s : State, s.d.pwr.cur = 9 →
    ∃ t, exec .pwrGoodLow s = .next t ∧ t.pending = s.pending ∧ t.nv.fuses = s.nv.fuses ∧ s.d.Enters 8 t.d ∧ t.d.pwr.good = false ∧
      t.d.pwr.req = false ∧ t.d.pwr.why = 0 ∧ t.d.kvx.ctxs = [] ∧ t.d.upd.cfgAt = some t.d.clk.life ∧
      t.d.events 0x018 = wrap32 (s.d.events 0x018 + 1)) ∧
  (∀ s : State, s.d.pwr.cur ≠ 9 → exec .pwrGoodLow s = .next { s with d := { s.d with pwr := { s.d.pwr with good := false } } })

/-- The wakes of R532 and R535, the grant of R533, the resume of R534.
The model's choices in it, which no rule of the spec states: what a resume keeps and restarts (log 69, 73, 103). -/
def Obligations.WakesAndResume : Prop :=
  (∀ s : State, s.d.pwr.pinEn = true → s.d.pwr.cur = 8 → s.d.pwr.resume = none →
    ∃ d, exec .wakePin s = .next { s with d := d } ∧ d.pwr.resume = some s.d.pwr.home ∧ d.pwr.wakeSrc = 1 ∧ d.pwr.cur = 8 ∧
      d.events 0x019 = wrap32 (s.d.events 0x019 + 1) ∧
      (¬ (s.d.pwr.good = true ∧ s.d.pwr.mainOk = true) →
        d.pwr.req = true ∧ d.pwr.why = s.d.pwr.why ||| 2 ∧ d.events 0x01A = wrap32 (s.d.events 0x01A + 1)) ∧
      s.d.SameBut (.pwr :: eventParts) d) ∧
  (∀ s : State, s.d.pwr.cur = 8 → s.d.pwr.resume = none → s.d.pwr.alarm ≠ 0 → s.d.pwr.alarm ≤ s.d.clk.installed →
    ∃ d, exec .rtcAlarm s = .next { s with d := d } ∧ d.pwr.resume = some s.d.pwr.home ∧ d.pwr.wakeSrc = 3 ∧ d.pwr.alarm = 0 ∧
      d.events 0x019 = wrap32 (s.d.events 0x019 + 1) ∧
      (¬ (s.d.pwr.good = true ∧ s.d.pwr.mainOk = true) → d.pwr.req = true ∧ d.pwr.why = s.d.pwr.why ||| 4) ∧
      s.d.SameBut (.pwr :: eventParts) d) ∧
  (∀ s : State, s.d.pwr.alarm = 0 ∨ s.d.clk.installed < s.d.pwr.alarm → exec .rtcAlarm s = .next s) ∧
  (∀ s : State, s.d.pwr.cur = 8 → s.d.pwr.resume = none → bit s.d.pwr.why 0 = false →
    s.d.med.lastPass + 86400 * s.d.med.scrubIv ≤ s.d.clk.installed →
    ∃ d, exec .rtcScrubWake s = .next { s with d := d } ∧ d.pwr.resume = some 9 ∧ d.pwr.wakeSrc = 4 ∧ d.scrubState = 3 ∧
      d.pwr.req = true ∧ d.pwr.why = s.d.pwr.why ||| 1 ∧ d.events 0x019 = wrap32 (s.d.events 0x019 + 1) ∧
      d.med.askAt = some s.d.clk.installed ∧ s.d.SameBut ([.pwr, .med] ++ eventParts) d) ∧
  (∀ s : State, s.d.pwr.cur = 8 → s.d.pwr.resume = some 9 →
    ∃ d, exec .powerGrant s = .next { s with d := d } ∧ s.d.Enters 9 d ∧ d.pwr.good = true ∧ d.pwr.mainOk = true ∧
      d.pwr.req = s.d.pwr.req ∧ d.scrubState = 2 ∧ d.bank.chg = true ∧ d.kvx = s.d.kvx) ∧
  (∀ (s : State) (m : Nat), s.d.pwr.cur = 8 → s.d.pwr.resume = some m → m ≠ 9 →
    exec .powerGrant s = .next { s with d := { s.d with pwr := { s.d.pwr with good := true, mainOk := true, req := false, why := 0 } } }) ∧
  (∀ (s : State) (m : Nat), s.d.pwr.cur = 8 → s.d.pwr.resume = some m → m ≠ 9 → s.d.pwr.good = true → s.d.pwr.mainOk = true →
    ∃ d, exec .resumeDone s = .next { s with d := d } ∧ s.d.Enters m d ∧ d.pwr.resume = none ∧ d.pwr.req = false ∧ d.pwr.why = 0 ∧
      d.portA.link.train = true ∧ d.portB.link.train = true ∧ d.jack.onLane = false ∧ d.bank.chg = true ∧ d.bank.en = false ∧
      d.kvx = s.d.kvx)

/-- HOLD-UP, RESET, the always-on supply, the entry to BOOT.
The model's choices in it, which no rule of the spec states: HOLD-UP with the RESET after it is one command (log 70), the flush time and
outcome are operands (log 12), what RESET clears (log 69, 74), the jumps after a loss of 3.3VAUX (log 75). -/
def Obligations.PowerEdges : Prop :=
  (∀ (s : State) (f : Flush), s.d.pwr.cur ∈ [3, 4, 5, 6, 7, 9, 0xB] →
    (∃ t, exec (.mainPowerLoss f) s = .next t ∧ s.EndsHeldUp f t ∧ t.d.pwr.mainOk = false) ∧
    (∃ t, exec (.resetAssert f) s = .next t ∧ s.EndsHeldUp f t ∧ t.d.pwr.resetN = false)) ∧
  (∀ (s : State) (f : Flush) (temp : BitVec 16), s.d.pwr.cur ∈ [3, 4, 5, 6, 7, 9, 0xB] → temp.toInt > 950 →
    ∃ t, exec (.thermalShutdown temp f) s = .next t ∧ s.EndsHeldUp f t ∧ t.d.pwr.shut = true ∧ t.d.pwr.temp = temp) ∧
  (∀ (s : State) (f : Flush), s.d.pwr.cur ∈ [0, 8, 0xA] →
    exec (.mainPowerLoss f) s = .next { s with d := { s.d with pwr := { s.d.pwr with mainOk := false } } } ∧
    exec (.resetAssert f) s = .next { s with d := { s.d with pwr := { s.d.pwr with resetN := false } } }) ∧
  (∀ (s : State) (f : Flush), s.d.pwr.cur ∈ [1, 2] →
    (∃ d, exec (.mainPowerLoss f) s = .next { s with d := d } ∧ d.pwr.cur = 0 ∧ d.kvx.store = s.d.kvx.store ∧ d.kvx.ctxs = []) ∧
    (∃ d, exec (.resetAssert f) s = .next { s with d := d } ∧ d.pwr.cur = 0 ∧ d.kvx.store = s.d.kvx.store ∧ d.kvx.ctxs = [])) ∧
  (∀ (s : State) (slot : BitVec 3), ∃ d, exec (.auxRise slot) s = .next { s with d := d } ∧
    d.pwr.cur = 0 ∧ d.pwr.aux = true ∧ d.mgmt.slotId = slot ∧ d.evr.lost = 0 ∧ d.kvx.store = s.d.kvx.store) ∧
  (∀ s : State, s.d.pwr.cur ∈ [0, 8] → ∃ d, exec .auxLoss s = .next { s with d := d } ∧
    d.pwr.aux = false ∧ d.clk.wallSet = false ∧ d.evr.front = [] ∧ d.jack = .reset ∧ d.pwr.alarm = 0 ∧ d.pwr.req = false ∧
    d.clk.installed = s.d.clk.instJour ∧ s.d.SameBut [.clk, .evr, .jack, .mgmt, .pwr] d) ∧
  (∀ s : State, s.d.pwr.cur ∉ [0, 8] →
    exec .auxLoss s = .next { s with d := { s.d with pwr := { s.d.pwr with aux := false } } }) ∧
  (∀ s : State, s.d.pwr.cur ≠ 0 → s.d.pwr.cur ≠ 8 →
    exec .auxBelowRange s = .next { s with d := { s.d with pwr := { s.d.pwr with aux := false } } }) ∧
  (∀ s : State, s.d.pwr.cur = 0 → s.d.pwr.shut = false → s.d.pwr.aux = true → s.d.dmc.retired < 3 →
    ∃ d, exec .bootEntry s = .next { s with d := d } ∧ d.pwr.cur = 1 ∧ d.pwr.trans = 0 ∧ d.pwr.resetN = true ∧ d.pwr.good = true ∧
      d.pwr.mainOk = true ∧ d.bank.chg = true ∧ d.bank.en = false ∧ d.bank.emeas = 0 ∧ d.events 0x001 = wrap32 (s.d.events 0x001 + 1) ∧
      s.d.SameBut ([.pwr, .bank] ++ eventParts) d)

/-- `PWR_MAIN_LOW`, `PWR_THERM_WARN` and the thermal cap (R408, R518). Temperatures are in 0.1 degrees.
The model's choices in it, which no rule of the spec states: the readings are operands of the rows (log 12). -/
def Obligations.PowerWarnings : Prop :=
  (∀ (s : State) (mv : Nat), 10000 ≤ mv → mv ≤ 10800 →
    ∃ d, exec (.pwrMainLow mv) s = .next { s with d := d } ∧ d.events 0x013 = wrap32 (s.d.events 0x013 + 1) ∧ s.d.SameBut eventParts d) ∧
  (∀ (s : State) (mv : Nat), mv < 10000 ∨ 10800 < mv → exec (.pwrMainLow mv) s = .next s) ∧
  (∀ (s : State) (temp : BitVec 16), 850 < temp.toInt → s.d.pwr.capTherm ≠ 1 → s.d.pwr.cur ∉ [0, 8] →
    ∃ d, exec (.thermalWarn temp) s = .next { s with d := d } ∧ d.pwr.temp = temp ∧ d.pwr.capTherm = 1 ∧
      d.pwr.capEff = min (min s.d.pwr.capSel 1) (if s.d.pwr.cur = 6 ∨ s.d.pwr.cur = 9 then 1 else 3) ∧
      d.events 0x003 = wrap32 (s.d.events 0x003 + 1) ∧ s.d.SameBut ([.pwr, .dmc] ++ eventParts) d) ∧
  (∀ (s : State) (temp : BitVec 16), 800 < temp.toInt ∨ s.d.clk.life < s.d.pwr.hotAt + 60000000000 →
    ∃ d, exec (.thermalRecover temp) s = .next { s with d := d } ∧ d.pwr.temp = temp ∧ d.pwr.capTherm = s.d.pwr.capTherm ∧
      (temp.toInt < 850 → d.pwr.shut = false) ∧ s.d.SameBut [.pwr] d) ∧
  (∀ (s : State) (temp : BitVec 16), temp.toInt ≤ 800 → s.d.pwr.hotAt + 60000000000 ≤ s.d.clk.life →
    ∃ d, exec (.thermalRecover temp) s = .next { s with d := d } ∧ d.pwr.temp = temp ∧ d.pwr.capTherm = 3 ∧ d.pwr.shut = false ∧
      d.pwr.capEff = min (min s.d.pwr.capSel 3) (if s.d.pwr.cur = 6 ∨ s.d.pwr.cur = 9 then 1 else 3) ∧
      d.events 0x003 = s.d.events 0x003 ∧ s.d.SameBut ([.pwr, .dmc] ++ eventParts) d)

/-- The recorder and the always-on clocks.
The model's choices in it, which no rule of the spec states: one RECORD_MOVE moves one record (log 67), the clocks jump by what R603 and
R613 allow (log 75), the tick (log 1). -/
def Obligations.RecorderAndClocks : Prop :=
  (∀ (s : State) (r : EvRec) (rest : List EvRec), s.d.evr.front = r :: rest → s.d.pwr.cur ∈ [3, 4, 5, 6, 9, 0xB] → s.d.evr.freeze = none →
    ∃ d, exec .recordMove s = .next { s with nv := if r.seq ≤ 4096 then s.nv.birth r else s.nv, d := d } ∧
      d.evr.carousel = (s.d.evr.carousel.filter fun x => decide (r.seq < x.seq + 1048576)) ++ [r] ∧
      d.evr.birth = s.d.evr.birth + (if r.seq ≤ 4096 then 1 else 0) ∧
      (s.d.evr.lostNew = 0 → d.evr.front = rest ∧ s.d.SameBut [.evr, .med] d) ∧
      (s.d.evr.lostNew ≠ 0 → d.events 0x1F0 = wrap32 (s.d.events 0x1F0 + 1) ∧ s.d.SameBut (.med :: eventParts) d)) ∧
  (∀ (v : Nv) (r : EvRec), v.wf = true → 1 ≤ r.seq → r.seq ≤ 4096 →
    (v.birth r).read (birthBase + 64 * (r.seq - 1)) 64 = r.bytes ∧
    ∀ a, a < birthBase + 64 * (r.seq - 1) ∨ birthBase + 64 * r.seq ≤ a → flashByte a (v.birth r).flash = flashByte a v.flash) ∧
  (∀ s : State, s.d.evr.front = [] ∨ s.d.evr.freeze ≠ none ∨ s.d.pwr.cur ∉ [3, 4, 5, 6, 9, 0xB] → exec .recordMove s = .next s) ∧
  (∀ (s : State) (t : Nat), s.d.evr.freeze = some t → t + 10000000000 ≤ s.d.clk.life →
    ∃ d, exec .freezeTimeout s = .next { s with d := d } ∧ d.evr.freeze = none ∧ d.evr.lift = 3 ∧
      d.events 0x1F1 = wrap32 (s.d.events 0x1F1 + 1) ∧ s.d.SameBut eventParts d) ∧
  (∀ s : State, s.d.pwr.cur ∈ [3, 4, 5, 6, 9, 0xB] →
    exec .lifeClockJournal s = .next { s with d := { s.d with clk := { s.d.clk with lifeJour := s.d.clk.life, instJour := s.d.clk.installed } } }) ∧
  (∀ s : State, s.d.pwr.cur ∉ [3, 4, 5, 6, 9, 0xB] → exec .lifeClockJournal s = .next s) ∧
  (∀ (s : State) (p : Path) (v : Word) (d : Drive) (x : Nat), s.reaches p 0xD210 = some d → field v.toNat 24 8 = 0x54 → bit v.toNat 0 = true →
    d.staged p 0xD208 + d.staged p 0xD20C * 2 ^ 32 = x →
    ∃ d', exec (.timeSet p v) s = .next { s with d := d' } ∧
      d'.clk = { d.clk with wallSet := x != 0, wall := x, wallRun := 0, wallErr := 0, wallBack := decide (x < d.clk.wallTime) } ∧
      d'.events 0x005 = wrap32 (d.events 0x005 + 1) ∧ d.SameBut (.clk :: eventParts) d') ∧
  (∀ (s : State) (p : Path) (v : Word) (d : Drive), s.reaches p 0xD210 = some d → field v.toNat 24 8 ≠ 0x54 →
    exec (.timeSet p v) s = .next { s with d := { d with clk := { d.clk with timeErr := true } } })

/-- R592, R594 and R596 for one occurrence, R601 and R607 for its record.
The model's choices in it, which no rule of the spec states: event data the spec leaves open are free values (log 4). -/
def Obligations.EventOccurrence : Prop :=
  (∀ (d : Drive) (n : Nat) (b : Bytes) (x : Nat × Bool), catalogue n = some x →
    (d.occur n b).2.events n = wrap32 (d.events n + 1) ∧
    (∀ m, m ≠ n → (d.occur n b).2.evr.src m = d.evr.src m) ∧
    d.SameBut [.evr] (d.occur n b).2 ∧
    ((d.evr.src n).en = false → (d.occur n b).1 = false ∧ (d.occur n b).2.evr.front = d.evr.front ∧
      (d.occur n b).2.evr.lost = d.evr.lost ∧ ((d.occur n b).2.evr.src n).latch = (d.evr.src n).latch) ∧
    ((d.evr.src n).en = true → n ≠ srcWatch → ((d.occur n b).2.evr.src n).latch = true) ∧
    (n ≠ srcCtxFull → ((d.occur n b).1 = true ↔ (d.evr.src n).en = true ∧ (x.2 = true → (d.evr.src n).latch = false))) ∧
    ((d.occur n b).1 = true → (d.evr.src n).toRec = true ∨ (d.evr.src n).sev = 2 → d.evr.front.length < 4096 →
      ∃ r : EvRec, (d.occur n b).2.evr.front = d.evr.front ++ [r] ∧ r.seq = d.evr.nextSeq ∧ r.src = n ∧ r.sev = (d.evr.src n).sev ∧
        r.count = wrap32 (d.events n + 1) ∧ r.data = padTo 24 b ∧ r.life = d.clk.life ∧ r.frozen = d.evr.freeze.isSome ∧
        (d.occur n b).2.evr.nextSeq = d.evr.nextSeq + 1) ∧
    ((d.occur n b).1 = true → (d.evr.src n).toRec = true ∨ (d.evr.src n).sev = 2 → 4096 ≤ d.evr.front.length →
      (d.occur n b).2.evr.front = d.evr.front ∧ (d.occur n b).2.evr.lost = wrap32 (d.evr.lost + 1))) ∧
  (∀ (d : Drive) (n : Nat) (b : Bytes), catalogue n = none → d.occur n b = (false, d))

/-- What `step` adds around `exec`. The tick on an empty queue is the model's choice.
The model's choices in it, which no rule of the spec states: the tick on an empty queue is the choice of log entry 1; the measured power and temperature are open values (log 137). -/
def Obligations.StepRunsQueueFront : Prop :=
  (∀ (c : Instr) (s : State), step { s with pending := c :: s.pending } = exec c s) ∧
  (∀ s : State, s.pending = [] → s.d.sys.posted = [] →
    s.d.portA.rxq = [] → s.d.portB.rxq = [] → s.d.cry.ctxs = [] → s.d.xpt.tx = [] → (∀ c ∈ s.d.xpt.conns, c.txq = []) →
    (∀ n, (s.d.dmc.chan n).retEnd = none) →
    ∃ d, step s = .next { s with d := d } ∧
      d.clk.life = s.d.clk.life + (if s.d.pwr.cur = 0 ∨ s.d.pwr.cur = 8 then 0 else 40) ∧
      d.kvx = s.d.kvx ∧ d.pwr = { s.d.pwr with peak := d.pwr.peak, avg := d.pwr.avg, temp := d.pwr.temp, hotAt := d.pwr.hotAt } ∧ d.upd = s.d.upd ∧
      (s.d.idx.pnext = none → d.xpt = s.d.xpt ∧ d.hq = s.d.hq ∧ d.evr = s.d.evr))

/-- No command stops the block, and none touches the queue.
The model's choices in it, which no rule of the spec states: that no command faults or is refused is the choice of log entry 7; a row whose
condition does not hold changes nothing (log 2). -/
def Obligations.EveryCommandAnswers : Prop :=
  ∀ (i : Instr) (s : State), ∃ t, exec i s = .next t ∧ t.pending = s.pending

/-- The invariant of the configuration flash and the fuses, kept by every step from every state that has it.
The model's choices in it, which no rule of the spec states: the canonical form of the flash is the model's (log 11); the blowing of fuses
is in one step (log 97). -/
def Obligations.FlashAndFusesKept : Prop :=
  ∀ s t : State, s.Wf → step s = .next t → t.Wf ∧ s.nv.fuses ≤ t.nv.fuses

/-- Reset values that the spec states, and the invariant at reset.
The model's choices in it, which no rule of the spec states: the state of a new module and every register without a reset number in the spec
are the choices of log entries 5 and 6. -/
def Obligations.ResetState : Prop :=
  State.reset.Wf ∧ State.reset.pending = [] ∧ State.reset.d.pwr.cur = 1 ∧ State.reset.d.pwr.last = 3 ∧
    State.reset.d.pwr.bootMode = 3 ∧
    State.reset.d.xpt.conns = [] ∧ State.reset.d.xpt.helloTo = 5000 ∧ State.reset.d.hq.sqs = [] ∧ State.reset.d.hq.cqs = [] ∧
    State.reset.d.kvx.store.kss = [] ∧ State.reset.d.kvx.store.recs = [] ∧
    State.reset.d.portA.maxFrm = 9216 ∧ State.reset.d.portB.maxFrm = 9216 ∧
    State.reset.d.bank.stageCap = 4096 ∧ State.reset.d.bank.en = false ∧ State.reset.d.evr.nextSeq = 1 ∧
    State.reset.d.idx.updCap = 8 ∧ State.reset.d.csc.syncMs = 10 ∧ State.reset.d.dmc.rtInt = 30

/-- The configuration flash is written by the rows that the spec names alone; the host's commands have statements of their own.
The model's choices in it, which no rule of the spec states: the canonical form of the flash is the model's (log 11); the configuration
store is written in HOLD-UP (log 70). -/
def Obligations.FlashWriters : Prop :=
  (∀ (i : Instr) (s t : State), hostCommand i = false → mayWriteFlash i = false → exec i s = .next t → t.nv = s.nv) ∧
  (∀ (i : Instr) (s t : State), hostCommand i = false → (∀ q tag, i ≠ .turn q tag) → i ≠ .admission → i ≠ .pacedAdmission →
    (∀ a ok n, i ≠ .liveActionEnd a ok n) → exec i s = .next t → t.nv.fuses = s.nv.fuses)

/-- The way of an entry from its ring to its data.
The model's choices in it, which no rule of the spec states: the order of the checks is that of log entries 13 to 16; the host memory of a
row stands for the schedule (log 3); the order of SQs in a round (log 105), the share of a catch-up fetch (log 106). -/
def Obligations.FetchAndData : Prop :=
  (∀ (s : State) (q n : Nat) (cu : Bool) (d : Drive) (x : Sq) (c : Conn),
    (cu = false → s.d.catchUpReady = false ∧ (if s.d.roundOver then s.d.newRound else s.d) = d ∧ d.turnSq? = some x) →
    (cu = true → s.d = d ∧ d.catchUpDue x = true ∧ d.fetchable x true = .ok) → 1 ≤ n →
    d.sq? q = some x → d.conn? x.conn = some c → d.readFree x.conn = true →
    ∃ d' k x' c' r, exec (.sqeFetchIssue q n cu) s = .next { s with d := d' } ∧ 1 ≤ k ∧ k ≤ min n 32 ∧
      (0 < x.depth → x.fetched % x.depth + k ≤ x.depth) ∧
      d'.kvx.ctxs.length = d.kvx.ctxs.length + k ∧ d'.kvx.fetchSeq = d.kvx.fetchSeq + k ∧
      d'.sq? q = some x' ∧ x'.fetched = x.fetched + k ∧ x'.head = x.head ∧
      d'.conn? x.conn = some c' ∧ c.Made c' [r] ∧ r.kind = .read (128 * k) ∧
      r.addr = x.addr + 128 * (x.fetched % x.depth) ∧ r.rkey = x.rkey ∧ s.d.SameBut [.kvx, .hq, .xpt, .pwr] d') ∧
  (∀ (s : State) (q o : Nat) (b : Bytes) (x : Sq) (y : Conn) (r : Req) (c : Ctx), s.d.sqeRead? q = some (y, r, [o]) → b.length = 128 →
    s.d.sq? q = some x → s.d.ctx? q o = some c →
    ∃ d x' c', exec (.sqeArrival q [b]) s = .next { s with d := d } ∧ d.sq? q = some x' ∧ x'.head = x.head + 1 ∧
      d.ctx? q o = some c' ∧ c'.arrived = true ∧ c'.op = byteAt b 0 ∧ c'.e = parseSqe b ∧
      (∀ f, fetchFault x.admin (s.d.kvx.ctxs.any fun p => p.sq == q && p.arrived && p.ord != o && p.e.tag == (parseSqe b).tag)
        (s.d.namesOwn x.conn c'.op c'.e) c'.op c'.e = some f → c'.fail = some f) ∧
      s.d.SameBut [.kvx, .hq, .xpt, .dmc] d) ∧
  (∀ (s : State) (q tag i : Nat) (data : Bytes) (c : Ctx) (r : ReadReq) (w : Req), s.d.reader? q tag = some c →
    s.d.dataRead? q c.ord = some (c, r, w) → r.what = .value i → data.length = r.len → s.d.isDead c.conn = false →
    c.fail = none → c.discarded = false → c.marked = none → c.settled = false →
    ∃ d c', exec (.valueDataArrival q tag data) s = .next { s with d := d } ∧ d.ctx? q c.ord = some c' ∧
      c'.vals = c.vals ++ [(i, data)] ∧ c'.reads.length + 1 = c.reads.length ∧ s.d.SameBut [.kvx, .xpt, .dmc] d) ∧
  (∀ (s : State) (q tag : Nat) (c : Ctx) (r : ReadReq) (w : Req), s.d.reader? q tag = some c →
    s.d.dataRead? q c.ord = some (c, r, w) → c.fail = none →
    ∃ d c', exec (.rdmaReadRefused q (some tag)) s = .next { s with d := d } ∧ d.ctx? q c.ord = some c' ∧
      c'.fail = some { (Res.failed stRemote (if c.op = 0x10 ∧ c.ops = none then 4 else 8) (leBytes 8 r.addr)) with
        idx := if c.op = 0x10 ∧ c.ops = none then none else r.what.operation } ∧ s.d.SameBut [.kvx, .xpt] d) ∧
  (∀ (s : State) (q : Nat) (x : Conn) (r : Req) (ords : List Nat), s.d.sqeRead? q = some (x, r, ords) →
    ∃ d y, exec (.rdmaReadRefused q none) s = .next { s with d := d } ∧ d.sq? q = some y ∧ y.faulted = true ∧
      (∀ o ∈ ords, d.ctx? q o = none) ∧ d.events 0x091 = wrap32 (s.d.events 0x091 + 1) ∧
      s.d.SameBut ([.kvx, .dmc] ++ eventParts) d)

/-- Releases of commands that wait, and the age of window entries.
The model's choices in it, which no rule of the spec states: the drive's schedule is the order of the rows (log 2, 3); replayed repeats make
no entry (log 25). -/
def Obligations.WaitingCommandsStart : Prop :=
  (∀ (s : State) (q tag : Nat) (c : Ctx), s.d.find? q tag (fun c => s.d.dominoDone c) = some c → s.d.ctx? q c.ord = some c →
    c.discarded = false → c.marked = none → c.settled = false → c.started = false → c.fail = none → c.op ≠ 0x14 →
    s.d.barrierAhead c = false → (s.d.hq.sqs.any fun x => x.conn == c.conn && s.d.ahead x c) = false →
    (s.d.domino c = .start → ∃ d c', exec (.dominoResolve q tag) s = .next { s with d := d } ∧ d.ctx? q c.ord = some c' ∧
      c'.started = true ∧ s.d.SameBut [.kvx, .xpt, .dmc] d) ∧
    (∀ r, s.d.domino c = .fail r → ∃ d c', exec (.dominoResolve q tag) s = .next { s with d := d } ∧ d.ctx? q c.ord = some c' ∧
      c'.started = true ∧ c'.wait = .none ∧ c'.fail = some r ∧ s.d.SameBut [.kvx] d)) ∧
  (∀ (s : State) (q tag : Nat) (c : Ctx), s.d.find? q tag (fun c => c.wait == .barrier && !s.d.barrierAhead c) = some c →
    s.d.ctx? q c.ord = some c → c.discarded = false → c.marked = none → c.settled = false → c.started = false → c.fail = none →
    c.op ≠ 0x14 → (s.d.hq.sqs.any fun x => x.conn == c.conn && s.d.ahead x c) = false → s.d.domino c = .start →
    ∃ d c', exec (.barrierRelease q tag) s = .next { s with d := d } ∧ d.ctx? q c.ord = some c' ∧ c'.started = true ∧
      s.d.SameBut [.kvx, .xpt, .dmc] d) ∧
  (∀ (s : State) (q tag : Nat) (c : Ctx) (w : WinEntry), s.d.find? q tag (fun c => c.wait == .dedup) = some c →
    s.d.ctx? q c.ord = some c → c.discarded = false → c.marked = none → c.settled = false → c.started = true → c.fail = none →
    dedupOp c.op = true → c.e.dedup = true → (∀ p ∈ s.d.kvx.ctxs, s.d.originalOf c p = false) →
    (s.d.kvx.window.find? fun w => w.tenant == c.tenant && w.reqId == c.e.reqId.toNat && decide (s.d.clk.life < w.life + 600000000000)) = some w →
    ∃ d c', exec (.dedupRepeatRelease q tag) s = .next { s with d := d } ∧ d.ctx? q c.ord = some c' ∧ c'.wait = .none ∧
      c'.fail = some { status := stReplayed, stage := 5, b := leBytes 8 w.status ++ leBytes 8 w.version } ∧ s.d.SameBut [.kvx, .dmc] d) ∧
  (∀ s : State, exec .windowEntryExpiry s = .next { s with d := { s.d with kvx := { s.d.kvx with
    window := s.d.kvx.window.filter fun w => decide (s.d.clk.life < w.life + 600000000000) } } })

/-- Settling, by the row that brings it about. Statuses: 0x7001 NOT_EXECUTED, 0x7003 ABORTED.
The model's choices in it, which no rule of the spec states: a settled command leaves its queues (log 39); a discarded command marked by
ABORT (log 27). -/
def Obligations.CommandsSettle : Prop :=
  (∀ (s : State) (q tag : Nat) (c : Ctx), s.d.find? q tag (fun c => s.d.readDone c) = some c → s.d.soleCtx q c.ord = true →
    c.reads = [] → c.op ≠ 0x10 →
    ∃ d c', exec (.settle q tag) s = .next { s with d := d } ∧ d.ctx? q c.ord = some c' ∧ c'.settled = true ∧ c'.res = c.res ∧
      d.kvx.store = s.d.kvx.store) ∧
  (∀ (s : State) (q tag : Nat) (c : Ctx), s.d.find? q tag (fun c => c.discarded && !c.settled && c.idle) = some c →
    s.d.soleCtx q c.ord = true → c.reads = [] → c.marked = none →
    ∃ d c', exec (.discardedSettle q tag) s = .next { s with d := d } ∧ d.ctx? q c.ord = some c' ∧ c'.settled = true ∧
      c'.res.status = 0x7001 ∧ (∀ x ∈ d.kvx.staged, ¬ (x.sq = q ∧ x.ord = c.ord ∧ x.serial = none)) ∧ d.kvx.store = s.d.kvx.store) ∧
  (∀ (s : State) (q tag tag' q' : Nat) (c : Ctx), s.d.find? q tag (fun c => c.marked.isSome && !c.settled && c.idle) = some c →
    s.d.soleCtx q c.ord = true → c.reads = [] → c.marked = some (tag', q') →
    ∃ d c', exec (.abortedSettle q tag) s = .next { s with d := d } ∧ d.ctx? q c.ord = some c' ∧ c'.settled = true ∧
      c'.res.status = 0x7003 ∧ c'.res.b = leBytes 2 tag' ++ leBytes 2 q' ∧
      (∀ x ∈ d.kvx.staged, ¬ (x.sq = q ∧ x.ord = c.ord ∧ x.serial = none)) ∧ d.kvx.store = s.d.kvx.store) ∧
  (∀ (s : State) (q tag : Nat) (c : Ctx) (r : Res), s.d.find? q tag (fun c => s.d.turnAllowed c) = some c → s.d.soleCtx q c.ord = true →
    c.fail = some r → c.op ≠ 0x10 →
    ∃ d c', exec (.turn q tag) s = .next { s with d := d } ∧ d.ctx? q c.ord = some c' ∧ c'.turned = true ∧ c'.settled = true ∧ c'.res = r ∧
      d.kvx.store = s.d.kvx.store) ∧
  (∀ (s : State) (q tag : Nat) (c : Ctx), s.turnIs q tag 0x19 c → s.d.barrierReady c = true →
    ∃ t, exec (.turn q tag) s = .next t ∧ s.Answers c {} [] t) ∧
  (∀ (s : State) (q tag : Nat) (c : Ctx), s.turnIs q tag 0x18 c → s.d.flushReady c = true →
    ∃ t, exec (.turn q tag) s = .next t ∧ s.Answers c { b := leBytes 8 c.counted } [] t)

/-- What the drive writes to the host of its own accord.
The model's choices in it, which no rule of the spec states: a context is free when its CQE is acknowledged (log 40); the sender of rows is
the schedule (log 2). -/
def Obligations.Completions : Prop :=
  (∀ (s : State) (q tag : Nat) (c : Ctx) (x : Sq) (y : Cq) (z : Conn), s.d.find? q tag (fun c => s.d.cqeAllowed c) = some c →
    s.d.ctx? q c.ord = some c → s.d.sq? q = some x → s.d.cq? x.cq = some y → s.d.conn? y.conn = some z →
    ∃ d y' z' c' r rs, exec (.cqeWrite q tag) s = .next { s with d := d } ∧ d.cq? x.cq = some y' ∧ y'.tail = y.tail + 1 ∧
      d.conn? y.conn = some z' ∧ z.Made z' (r :: rs) ∧ r.kind = .write ∧ r.addr = y.addr + 32 * (y.tail % y.depth) ∧
      r.data = withPhase (phase y.depth y.tail) (cqe c.e.tag.toNat q c.res.status c.res.flags c.res.b c.res.len (x.headOf c)) ∧
      d.ctx? q c.ord = some c' ∧ c'.cqe = true ∧ s.d.SameBut [.kvx, .hq, .xpt] d) ∧
  (∀ (s : State) (q : Nat) (y : Cq) (z : Conn), s.d.cq? q = some y → s.d.conn? y.conn = some z → y.since ≠ 0 → y.nen = true →
    y.firstAt + 1000 * y.time ≤ s.d.clk.life + 1000 →
    ∃ d y' z' r, exec (.notificationTimer q) s = .next { s with d := d } ∧ d.cq? q = some y' ∧ y' = { y with since := 0 } ∧
      d.conn? y.conn = some z' ∧ z.Made z' [r] ∧ r.kind = .writeImm (y.tail % y.depth * 2 ^ 16 + q) ∧
      s.d.SameBut [.hq, .xpt] d) ∧
  (∀ (s : State) (q : Nat) (x : Sq) (f : Freeze) (z : Conn), s.d.sq? q = some x → x.freeze = some f → f.recSeq = none →
    (∀ c ∈ s.d.kvx.ctxs, c.sq = q → f.failOrd ≤ c.ord → s.d.cqeDone c = true) → s.d.conn? x.conn = some z →
    ∃ d x' f' z' r, exec (.errorRecordWrite q) s = .next { s with d := d } ∧ d.sq? q = some x' ∧ x'.freeze = some f' ∧
      f'.recSeq = some (z.errSeq + 1) ∧ d.conn? x.conn = some z' ∧ z'.errSeq = z.errSeq + 1 ∧ r ∈ z'.errs ∧ r.seq = z.errSeq + 1 ∧
      r.tag = f.tag ∧ r.res = f.res ∧ r.op = f.op ∧ r.frozen = true ∧
      d.events 0x090 = wrap32 (s.d.events 0x090 + 1) ∧ s.d.SameBut eventParts d) ∧
  (∀ (s : State) (k : Nat) (z : Conn) (b : Bytes) (rest : List Bytes) (y : Cq), s.d.conn? k = some z → z.events = b :: rest →
    s.d.cq? z.eventCq = some y → y.faulted = false → s.d.cqRoom y = true → y.conn = k →
    ∃ d y' z', exec (.eventCqeRelease k) s = .next { s with d := d } ∧ d.cq? z.eventCq = some y' ∧ y'.tail = y.tail + 1 ∧
      d.conn? k = some z' ∧ z'.events = rest ∧ s.d.SameBut [.hq, .xpt] d) ∧
  (∀ (s : State) (x : Check) (rest : List Check), s.d.kvx.checks = x :: rest → s.d.islState 6 = 0 →
    ∃ d, exec .watchCheck s = .next { s with d := d } ∧ d.kvx.checks = rest ∧ d.kvx.store = s.d.kvx.store ∧
      s.d.SameBut ([.kvx, .idx] ++ eventParts) d ∧
      (∀ w, s.d.kvx.watches = [w] → w.wants x = true →
        d.kvx.watches = [{ w with seq := wrap32 (w.seq + 1) }] ∧ d.events srcWatch = wrap32 (s.d.events srcWatch + 1)) ∧
      ((∀ w ∈ s.d.kvx.watches, w.wants x = false) → d.kvx.watches = s.d.kvx.watches ∧ d.events srcWatch = s.d.events srcWatch))

/-- Program statuses (R390, R392, R660); programs of a channel that is reset wait (R376).
The model's choices in it, which no rule of the spec states: whether a program succeeded is an operand (log 12), where a retry goes is the
model's choice (log 36). -/
def Obligations.ProgramStatus : Prop :=
  (∀ (s : State) (id n : Nat) (loc : BitVec 48) (v : Staged), s.d.kvx.staged.find? (fun x => x.recId == id) = some v → 4096 ≤ v.len →
    (∃ c ∈ v.chunks, c.1 = n) → s.d.med.chanWaits loc = false →
    ∃ d, exec (.chunkProgramComplete id n true loc) s = .next { s with d := d } ∧
      (v.serial.isSome = true → (∀ c ∈ v.chunks, c.1 = n) →
        d.kvx.staged = s.d.kvx.staged.filter fun x => x.recId != id) ∧
      (v.serial = none ∨ (∃ c ∈ v.chunks, c.1 ≠ n) →
        d.kvx.staged.find? (fun x => x.recId == id) = some { v with chunks := v.chunks.filter fun c => c.1 != n } ∧
        ∀ j, j ≠ id → d.kvx.staged.find? (fun x => x.recId == j) = s.d.kvx.staged.find? fun x => x.recId == j) ∧
      d.kvx.store = s.d.kvx.store ∧ d.kvx.log = s.d.kvx.log ∧ s.d.SameBut ([.kvx, .bank] ++ eventParts) d) ∧
  (∀ (s : State) (id n : Nat) (loc : BitVec 48) (v : Staged), s.d.kvx.staged.find? (fun x => x.recId == id) = some v → 4096 ≤ v.len →
    (∃ c ∈ v.chunks, c.1 = n) → s.d.med.chanWaits loc = false → locNames loc = true →
    (s.d.med.die (s.d.med.posDie (locCh loc) (locPos loc))).retBlk < 81 →
    ∃ d, exec (.chunkProgramComplete id n false loc) s = .next { s with d := d } ∧
      d.kvx.staged.find? (fun x => x.recId == id) = some { v with chunks := setKey v.chunks n (lookupD v.chunks n 0 + 1) } ∧
      d.events (0x100 + 4 * locCh loc + 1) = wrap32 (s.d.events (0x100 + 4 * locCh loc + 1) + 1) ∧
      (∀ c, v.serial = none → 2 ≤ lookupD v.chunks n 0 → s.d.ctx? v.sq v.ord = some c → c.fail = none →
        ∃ c' r, d.ctx? v.sq v.ord = some c' ∧ c'.fail = some r ∧ r.status = 0x5002 ∧ r.stage = 9) ∧
      d.kvx.store = s.d.kvx.store) ∧
  (∀ (s : State) (p : Pack), s.d.kvx.pack = some p → p.since + packWindow s.d.pwr.last ≤ s.d.clk.life →
    ∃ k : Kvx, exec .packWindowExpiry s = .next { s with d := { s.d with kvx := k } } ∧
      (s.d.kvx.packWait = [] →
        ((∃ r ∈ p.recs, s.d.kvx.uncommitted r = false) →
          k.packs = s.d.kvx.packs ++ [{ p with recs := p.recs.filter fun r => !s.d.kvx.uncommitted r }]) ∧
        ((∀ r ∈ p.recs, s.d.kvx.uncommitted r = false) → k.pack = none) ∧
        ((∃ r ∈ p.recs, s.d.kvx.uncommitted r = true) →
          k.pack.map (·.recs) = some (p.recs.filter s.d.kvx.uncommitted) ∧ k.pack.map (·.id) = some s.d.kvx.packSeq)) ∧
      k.staged = s.d.kvx.staged ∧ k.store = s.d.kvx.store ∧ k.log = s.d.kvx.log) ∧
  (∀ s : State, (∀ p, s.d.kvx.pack = some p → s.d.clk.life < p.since + packWindow s.d.pwr.last) → exec .packWindowExpiry s = .next s) ∧
  (∀ (s : State) (id : Nat) (loc : BitVec 48) (p : Pack), s.d.kvx.packs.find? (fun x => x.id == id) = some p → s.d.med.chanWaits loc = false →
    ∃ d, exec (.packProgramComplete id true loc) s = .next { s with d := d } ∧
      d.kvx.packs = s.d.kvx.packs.filter (fun x => x.id != id) ∧
      d.kvx.staged = s.d.kvx.staged.filter (fun x => !p.recs.contains x.recId) ∧
      d.kvx.store = s.d.kvx.store ∧ d.kvx.log = s.d.kvx.log ∧ s.d.SameBut ([.kvx, .bank] ++ eventParts) d) ∧
  (∀ s : State, s.d.kvx.journal = [] →
    exec .journalProgramTimer s = .next { s with d := { s.d with kvx := { s.d.kvx with
      journal := (s.d.kvx.log.filter fun r => !r.journaled).map (·.serial) } } }) ∧
  (∀ s : State, s.d.kvx.journal ≠ [] → exec .journalProgramTimer s = .next s) ∧
  (∀ s : State, ∃ d, exec .journalProgramComplete s = .next { s with d := d } ∧ d.kvx.journal = [] ∧
    d.kvx.log = (s.d.kvx.log.map fun r => if s.d.kvx.journal.contains r.serial then { r with journaled := true } else r) ∧
    d.kvx.store = s.d.kvx.store ∧ d.kvx.staged = s.d.kvx.staged ∧ s.d.SameBut ([.kvx, .bank, .med] ++ eventParts) d)

/-- The ladder of R344 for the codewords of values and index pages. Statuses: 0x5001 UNRECOVERABLE, 0x8003 AUTH_FAILED.
The model's choices in it, which no rule of the spec states: a step's outcome is an operand (log 12), the calibrated entry is a free value
(log 58), chunks and pages are named as in log entry 60. -/
def Obligations.ReadLadder : Prop :=
  (∀ (s : State) (q tag n : Nat) (loc : BitVec 48) (c : Ctx), s.d.find? q tag (fun c => s.d.reading c n) = some c →
    s.d.ctx? q c.ord = some c → s.d.cry.lost = false → locNames loc = true → s.d.med.genOk loc = true → s.d.med.unavailable (locCh loc) (locPos loc) = false →
    ∃ d c', exec (.codewordRead q tag n loc true false true) s = .next { s with d := d } ∧ d.ctx? q c.ord = some c' ∧
      c'.chunks = c.chunks.filter (fun x => x.1 != n) ∧ c'.settled = c.settled ∧ c'.res = c.res ∧ s.d.SameBut [.kvx, .xpt, .dmc] d) ∧
  (∀ (s : State) (q tag n : Nat) (loc : BitVec 48) (ok weak tagOk : Bool), locNames loc = false →
    exec (.codewordRead q tag n loc ok weak tagOk) s = .next s) ∧
  (∀ (s : State) (q tag n : Nat) (loc : BitVec 48) (ok weak tagOk : Bool) (c : Ctx), s.d.find? q tag (fun c => s.d.reading c n) = some c →
    s.d.soleCtx q c.ord = true → s.d.cry.lost = false → locNames loc = true → s.d.med.genOk loc = false →
    ((n, 0) ∉ c.chunks → ∃ d c', exec (.codewordRead q tag n loc ok weak tagOk) s = .next { s with d := d } ∧ d.ctx? q c.ord = some c' ∧
      (n, 0) ∈ c'.chunks ∧ c'.settled = false ∧ d.idx.flashRd = s.d.idx.flashRd + 1 ∧ s.d.SameBut [.kvx, .idx] d) ∧
    ((n, 0) ∈ c.chunks → ∃ d c', exec (.codewordRead q tag n loc ok weak tagOk) s = .next { s with d := d } ∧ d.ctx? q c.ord = some c' ∧
      (n < pageChunk → c'.settled = true ∧ c'.res.status = 0x9001) ∧
      (pageChunk ≤ n → ∃ r, c'.fail = some r ∧ r.status = 0x9001) ∧
      d.events 0x02A = wrap32 (s.d.events 0x02A + 1) ∧ d.kvx.store = s.d.kvx.store)) ∧
  (∀ (s : State) (q tag n : Nat) (loc : BitVec 48) (weak tagOk : Bool) (c : Ctx), s.d.find? q tag (fun c => s.d.reading c n) = some c →
    s.d.ctx? q c.ord = some c → s.d.cry.lost = false → locNames loc = true → s.d.med.genOk loc = true → s.d.med.unavailable (locCh loc) (locPos loc) = false →
    ∃ d c', exec (.codewordRead q tag n loc false weak tagOk) s = .next { s with d := d } ∧ d.ctx? q c.ord = some c' ∧
      (n, 2) ∈ c'.chunks ∧ (n, loc) ∈ c'.ladder ∧ s.d.SameBut ([.kvx, .med] ++ eventParts) d) ∧
  (∀ (s : State) (q tag n : Nat) (loc : BitVec 48) (ok weak tagOk : Bool) (c : Ctx), s.d.find? q tag (fun c => s.d.reading c n) = some c →
    s.d.ctx? q c.ord = some c → s.d.cry.lost = false → locNames loc = true → s.d.med.genOk loc = true → s.d.med.unavailable (locCh loc) (locPos loc) = true →
    ∃ d c', exec (.codewordRead q tag n loc ok weak tagOk) s = .next { s with d := d } ∧ d.ctx? q c.ord = some c' ∧
      (n, 5) ∈ c'.chunks ∧ (n, loc) ∈ c'.ladder ∧ s.d.SameBut ([.kvx, .med] ++ eventParts) d) ∧
  (∀ (s : State) (q tag n : Nat) (loc : BitVec 48) (weak : Bool) (c : Ctx), s.d.find? q tag (fun c => s.d.reading c n) = some c →
    s.d.soleCtx q c.ord = true → s.d.cry.lost = false → locNames loc = true → s.d.med.genOk loc = true → s.d.med.unavailable (locCh loc) (locPos loc) = false →
    n < pageChunk → c.tagged.contains n = true →
    ∃ d c', exec (.codewordRead q tag n loc true weak false) s = .next { s with d := d } ∧ d.ctx? q c.ord = some c' ∧
      c'.settled = true ∧ c'.res.status = 0x8003 ∧ d.cry.authF = wrap32 (s.d.cry.authF + 1) ∧
      d.events 0x1C1 = wrap32 (s.d.events 0x1C1 + 1)) ∧
  (∀ (s : State) (q tag n tries step i : Nat) (ok tagOk good : Bool) (failed : BitVec 32) (loc : BitVec 48) (rest : List (Nat × BitVec 48))
      (c : Ctx), s.d.islState 7 = 0 → s.d.cry.lost = false → locNames loc = true →
    s.d.find? q tag (fun c => c.alive && !c.ladder.isEmpty) = some c → s.d.soleCtx q c.ord = true → c.ladder = (n, loc) :: rest →
    lookupD c.chunks n 2 = step → s.d.med.posDie (locCh loc) (locPos loc) = i →
    (if step = 5 then decide ((s.d.med.failedMembers (decide (pageChunk ≤ n)) loc failed).length ≤
      (s.d.med.parityMembers (decide (pageChunk ≤ n)) loc).length) else ok) = good →
    (good = true → tagOk = true →
      ∃ d c', exec (.ladderStepComplete q tag ok { tries := tries, failed := failed, tagOk := tagOk }) s = .next { s with d := d } ∧ d.ctx? q c.ord = some c' ∧
        c'.chunks = c.chunks.filter (fun x => x.1 != n) ∧ c'.settled = false ∧
        (∀ x ∈ (s.d.med.segOf loc).toList, x.id ∈ d.med.marks) ∧
        (step = 4 → (d.med.die i).entry = some ((s.d.med.entry i + tries % 8) % 16)) ∧ s.d.SameBut [.kvx, .xpt, .med, .dmc, .idx, .free] d) ∧
    (good = true → tagOk = false → n < pageChunk → c.tagged.contains n = true →
      ∃ d c', exec (.ladderStepComplete q tag ok { tries := tries, failed := failed, tagOk := tagOk }) s = .next { s with d := d } ∧ d.ctx? q c.ord = some c' ∧
        c'.settled = true ∧ c'.res.status = 0x8003 ∧ d.events 0x1C1 = wrap32 (s.d.events 0x1C1 + 1)) ∧
    (good = false → step < 5 → (step = 4 → s.d.kvx.store.snaps = []) →
      ∃ d c', exec (.ladderStepComplete q tag ok { tries := tries, failed := failed, tagOk := tagOk }) s = .next { s with d := d } ∧ d.ctx? q c.ord = some c' ∧
        (n, step + 1) ∈ c'.chunks ∧ c'.settled = false) ∧
    (good = false → step = 5 → n < pageChunk →
      ∃ d c', exec (.ladderStepComplete q tag ok { tries := tries, failed := failed, tagOk := tagOk }) s = .next { s with d := d } ∧ d.ctx? q c.ord = some c' ∧
        c'.settled = true ∧ c'.res.status = 0x5001 ∧ c'.res.b = leBytes 6 loc.toNat)) ∧
  (∀ (s : State) (q tag tries : Nat) (ok tagOk : Bool) (failed : BitVec 32), s.d.islState 7 ≠ 0 →
    exec (.ladderStepComplete q tag ok { tries := tries, failed := failed, tagOk := tagOk }) s = .next s)

/-- Ends of background repairs.
The model's choices in it, which no rule of the spec states: what the margin gains and loses (log 59), the outcome of the retirement is an
operand (log 12). -/
def Obligations.RepairsEnd : Prop :=
  (∀ (s : State) (c : Nat), c < 32 → (s.d.med.die (16 * c + 15)).state = 2 →
    ∃ d, exec (.spareRebuildEnd c) s = .next { s with d := d } ∧ (d.med.die (16 * c + 15)).state = 0 ∧
      (d.med.die (16 * c + 15)).pos = (s.d.med.die (16 * c + 15)).pos ∧ (∀ i, i ≠ 16 * c + 15 → d.med.die i = s.d.med.die i) ∧
      d.events (0x100 + 4 * c + 3) = wrap32 (s.d.events (0x100 + 4 * c + 3) + 1) ∧ s.d.SameBut ([.med, .upd] ++ eventParts) d) ∧
  (∀ (s : State) (c : Nat), c < 32 → (s.d.med.chan c).state ≠ 2 →
    ∃ d, exec (.channelRetrainComplete c ⟨true, 0⟩) s = .next { s with d := d } ∧
      d.med.chan c = { s.d.med.chan c with state := 0, retrains := wrap32 ((s.d.med.chan c).retrains + 1), fails := 0 } ∧
      d.med.capacity = s.d.med.capacity ∧ d.events (0x100 + 4 * c + 2) = wrap32 (s.d.events (0x100 + 4 * c + 2) + 1) ∧
      s.d.SameBut ([.med, .upd] ++ eventParts) d) ∧
  (∀ (s : State) (c : Nat) (silent : BitVec 15), c < 32 → (s.d.med.chan c).state ≠ 2 → (s.d.med.chan c).fails = 2 → s.d.med.chLost = none →
    ∃ d, exec (.channelRetrainComplete c ⟨false, silent⟩) s = .next { s with d := d } ∧ (d.med.chan c).state = 2 ∧ d.med.chLost = some c ∧
      d.med.capacity = s.d.med.capacity - 3072 * 2 ^ 30 ∧ d.events 0x020 = wrap32 (s.d.events 0x020 + 1) ∧
      s.d.SameBut ([.upd, .pwr] ++ settleParts) d) ∧
  (∀ (s : State) (ks : Nat), s.d.idx.rebuild.head? = some ks → s.d.idx.rbEnd ≤ s.d.clk.life →
    ∃ d, exec (.rebuildEnd ks) s = .next { s with d := d } ∧ d.idx.rebuild = s.d.idx.rebuild.filter (· != ks) ∧
      d.idx.lost = s.d.idx.lost.filter (fun l => l.1 != ks) ∧ d.events 0x181 = wrap32 (s.d.events 0x181 + 1) ∧
      s.d.SameBut ([.idx, .med, .dmc] ++ eventParts) d) ∧
  (∀ (s : State) (ks : Nat), s.d.idx.rebuild.head? ≠ some ks ∨ s.d.clk.life < s.d.idx.rbEnd → exec (.rebuildEnd ks) s = .next s)

/-- The four steps of R359 and what starts them.
The model's choices in it, which no rule of the spec states: victims, targets and placement are the choices of log entries 36 and 56,
anchored segments move whole (log 57), the commit of a move takes a serial in domain 0 (log 33). -/
def Obligations.SegmentsMove : Prop :=
  (∀ (s : State) (id target : Nat) (x : Segment), s.d.med.seg? id = some x → x.cell = .buffer → x.rests = true →
    s.d.pwr.cur ∈ [3, 4, 5, 6, 0xB] → s.d.bank.overE = false →
    (s.d.pwr.cur = 5 ∨ s.d.pwr.cur = 6 → s.d.med.actual * 2 ^ 30 < 2 * s.d.med.bufferBytes ∨ s.d.med.bufAt + 60000000000 ≤ s.d.clk.life) →
    ∃ (m : Med) (y : Segment), exec (.fold id target) s = .next { s with d := { s.d with med := m } } ∧ m.seg? id = some y ∧
      y.state = .collecting ∧ y.into = (if x.owner.isSome then none else some target) ∧ y.frame = x.frame ∧ y.used = x.used ∧
      m.marks = s.d.med.marks) ∧
  (∀ (s : State) (id target : Nat) (x : Segment), s.d.med.seg? id = some x → x.rests = true → s.d.pwr.cur ∈ [3, 4, 5, 6, 9, 0xB] →
    (id ∈ s.d.med.marks ∨ id ∈ s.d.med.due → (s.d.med.rewrites.any fun t => t.id == id) = true →
      ∃ (m : Med) (y : Segment), exec (.segmentRefresh id target) s = .next { s with d := { s.d with med := m } } ∧ m.seg? id = some y ∧
        y.state = .collecting ∧ y.into = (if x.owner.isSome then none else some target) ∧ y.frame = x.frame ∧ y.used = x.used ∧
        m.marks = s.d.med.marks) ∧
    (id ∉ s.d.med.marks → id ∉ s.d.med.due → s.d.med.scrub = true →
      ∃ (m : Med) (y : Segment), exec (.segmentRefresh id target) s = .next { s with d := { s.d with med := m } } ∧ m.seg? id = some y ∧
        y.state = .collecting ∧ y.frame = x.frame ∧ m.marks = s.d.med.marks ++ [id] ∧ m.scrubSeg = id) ∧
    ((s.d.med.rewrites.any fun t => t.id == id) = false → s.d.med.scrub = false → exec (.segmentRefresh id target) s = .next s)) ∧
  (∀ (s : State) (id target : Nat) (loc : BitVec 48) (x : Segment), s.d.med.seg? id = some x → x.state = .collecting →
    (s.d.med.copiesWait = false →
      ∃ (m : Med) (n : Nat) (y : Segment), exec (.gcCopyProgrammed id target true loc) s = .next { s with d := { s.d with med := m, free := n } } ∧
        m.seg? id = some y ∧ y.state = .copied ∧ y.into = x.into.map (fun _ => target) ∧
        m.gcWrote = s.d.med.gcWrote + s.d.kvx.store.liveIn id) ∧
    (s.d.med.copiesWait = true → ∀ ok, exec (.gcCopyProgrammed id target ok loc) s = .next s)) ∧
  (∀ (s : State) (id : Nat) (x : Segment), s.d.med.seg? id = some x → x.state = .copied →
    (x.into = none → (s.d.med.newFrames x.cold x.exts).isSome = true) →
    (∀ t, x.into = some t → (s.d.placeMoves t x.owner (s.d.kvx.store.inSeg id) 0
      (if x.owner.isSome then (s.d.med.sealOpen .qlc x.owner).sealOpen .archive x.owner else s.d.med) s.d.free).1.length =
        (s.d.kvx.store.inSeg id).length) →
    ∃ d y r, exec (.gcMapCommit id) s = .next { s with d := d } ∧ d.med.seg? id = some y ∧ y.state = .mapped ∧
      d.kvx.store.recs.map (fun r => { r with seg := 0, off := 0 }) = s.d.kvx.store.recs.map (fun r => { r with seg := 0, off := 0 }) ∧
      (x.into = none → d.kvx.store.recs = s.d.kvx.store.recs ∧
        y.old = some { frame := x.frame, cell := x.cell, lacks := x.lacks, swaps := x.swaps, more := x.more }) ∧
      d.kvx.store.kss = s.d.kvx.store.kss ∧ d.kvx.turnSer = s.d.kvx.turnSer + 1 ∧ d.kvx.log = s.d.kvx.log ++ [r] ∧
      r.serial = s.d.kvx.turnSer + 1 ∧ r.domain = 0 ∧ r.journaled = true ∧ d.kvx.ctxs = s.d.kvx.ctxs ∧
      s.d.SameBut ([.kvx, .med, .idx, .dmc, .free] ++ eventParts) d) ∧
  (∀ (s : State) (id : Nat) (x : Segment), s.d.med.seg? id = some x → x.state = .copied → x.into = none →
    s.d.med.newFrames x.cold x.exts = none → exec (.gcMapCommit id) s = .next s) ∧
  (∀ (s : State) (id : Nat) (x : Segment), s.d.med.seg? id = some x → x.state = .mapped →
    ∃ (m : Med), exec (.gcReclaimRecord id) s = .next { s with d := { s.d with med := m } } ∧
      m.seg? id = some { x with state := .reclaiming } ∧ ∀ j, j ≠ id → m.seg? j = s.d.med.seg? j) ∧
  (∀ (s : State) (id : Nat) (loc : BitVec 48) (ok : Bool) (x : Segment) (xs : List Extent), s.d.med.seg? id = some x → x.state = .reclaiming →
    (x.old.map OldFrame.exts).getD x.exts = xs →
    ((xs.any fun e => s.d.readsFrame e.frame) = true → exec (.blockEraseComplete id ok loc) s = .next s) ∧
    ((xs.any fun e => s.d.readsFrame e.frame) = false →
      ∃ (m : Med), exec (.blockEraseComplete id true loc) s = .next { s with d := { s.d with med := m } } ∧
        m.seg? id = (if x.old = none then none else some { x with state := .sealed, old := none }) ∧
        (∀ j, j ≠ id → m.seg? j = s.d.med.seg? j) ∧
        ((extBlocks xs).Nodup → ∀ k, m.block k =
          if k ∈ extBlocks xs then
            { s.d.med.block k with erases := (s.d.med.block k).erases + 1
                                   wear := (s.d.med.block k).wear + ((x.old.map (·.cell)).getD x.cell).wear }
          else s.d.med.block k))) ∧
  (∀ (s : State) (id target : Nat) (x : Segment), s.d.med.seg? id = some x → x.rests = false →
    exec (.fold id target) s = .next s ∧ exec (.segmentRefresh id target) s = .next s)

/-- Epochs (R514) and passes (R380-R382).
The model's choices in it, which no rule of the spec states: the decisions of an epoch that the spec leaves open are those of log entry 56,
the calibrated entries that a pass finds are an operand (log 58), and a pass records no live action (log 164). -/
def Obligations.EpochAndScrub : Prop :=
  (∀ (s : State) (ch : Change), s.d.pwr.change = some ch → ch.target ∈ [3, 4, 5, 6, 0xB] → s.d.pwr.cur ∈ [3, 4, 5, 6] → s.d.pwr.roWant = 0 →
    ch.cmd = none → s.d.pwr.cmdQ = [] →
    ∃ d, exec .schedulingEpoch s = .next { s with d := d } ∧ s.d.Enters ch.target d ∧ d.pwr.change = none ∧
      d.med.target = bufferTarget s.d.fill ∧ d.pwr.roCause = (if ch.target = 0xB then 1 else if s.d.pwr.roCause = 1 then 0 else s.d.pwr.roCause) ∧
      d.kvx = s.d.kvx ∧ s.d.SameBut ([.pwr, .med, .dmc] ++ eventParts) d) ∧
  (∀ s : State, s.d.med.hourAt + 3600000000000 ≤ s.d.clk.life → s.d.pwr.change = none → s.d.pwr.roWant = 0 →
    ∃ d, exec .schedulingEpoch s = .next { s with d := d } ∧ d.pwr.cur = s.d.pwr.cur ∧ d.med.gcWrote = 0 ∧ d.med.hostHour = 0 ∧
      d.med.hourAt = s.d.clk.life ∧ d.pwr.capEff = d.pwr.capWant ∧ d.kvx = s.d.kvx) ∧
  (∀ s : State, s.d.scrubDue s.d.scrubDays = true → s.d.pwr.cur ∈ [3, 4, 5, 6, 0xB] → s.d.med.scrub = false →
    exec .scrubPassStart s = .next { s with d := { s.d with med := { s.d.med with
      scrub := true, scrubAt := s.d.clk.life, scrubSeg := 0, refPass := 0 } } }) ∧
  (∀ (s : State) (p : Path) (d : Drive), s.reaches p 0x914C = some d → d.pwr.cur ∈ [3, 4, 5, 6] → d.med.scrub = false →
    exec (.scrubNow p) s = .next { s with d := { d with med := { d.med with
      scrub := true, scrubAt := d.clk.life, scrubSeg := 0, refPass := 0 } } }) ∧
  (∀ (s : State) (es : List (BitVec 4)), s.d.scrubState = 1 → s.d.med.marks = [] →
    ∃ d, exec (.scrubPassEnd es) s = .next { s with d := d } ∧ d.med.scrub = false ∧ d.med.defer = 0 ∧ d.med.lastPass = s.d.clk.installed ∧
      d.med.passWall = s.d.clk.wallTime ∧ d.med.passes = wrap32 (s.d.med.passes + 1) ∧ d.med.refLast = wrap32 s.d.med.refPass ∧
      d.med.refLife = s.d.med.refLife ∧
      (∀ i, i < 512 → (s.d.med.die i).state ≠ 3 → (d.med.die i).calAt = s.d.clk.installed ∧ d.med.entry i = (es.getD i 0).toNat) ∧ d.events 0x028 = wrap32 (s.d.events 0x028 + 1) ∧
      s.d.SameBut ([.med, .free] ++ eventParts) d) ∧
  (∀ (s : State) (es : List (BitVec 4)), s.d.scrubState = 1 → s.d.med.marks ≠ [] → exec (.scrubPassEnd es) s = .next s) ∧
  (∀ (s : State) (t : Nat), s.d.pwr.cur = 8 ∨ s.d.pwr.cur = 0 → bit s.d.pwr.why 0 = true → s.d.med.askAt = some t →
    t + 86400 ≤ s.d.clk.installed →
    ∃ d, exec .scrubDeferral s = .next { s with d := d } ∧
      d.med = { s.d.med with defer := min 0xFFFF (s.d.med.defer + 1), deferLife := wrap32 (s.d.med.deferLife + 1),
                              askAt := some s.d.clk.installed } ∧
      d.events 0x027 = wrap32 (s.d.events 0x027 + 1) ∧ s.d.SameBut (.med :: eventParts) d) ∧
  (∀ s : State, s.d.pwr.cur ∉ [0, 8] ∨ bit s.d.pwr.why 0 = false ∨ (∀ t, s.d.med.askAt = some t → s.d.clk.installed < t + 86400) →
    exec .scrubDeferral s = .next s)

/-- The ways a connection comes up (R89-R99, R133).
The model's choices in it, which no rule of the spec states: the index of a REQ is its operand and a HELLO without free queue IDs fails (log
47); the challenge is a free value (log 4). -/
def Obligations.ConnectionComesUp : Prop :=
  (∀ (s : State) (r : CmReq), s.d.reqOk r = true →
    ∃ d, exec (.cmReq r) s = .next { s with d := d } ∧ (d.xpt.conn r.index).pending = true ∧ (d.xpt.conn r.index).state = .free ∧
      2 ≤ (d.xpt.conn r.index).qpn ∧ (d.xpt.conn r.index).qpn < 2 ^ 24 ∧ (d.xpt.conn r.index).rPsn = r.psn.toNat ∧
      (d.xpt.conn r.index).path.rqpn = r.qpn.toNat ∧ (d.xpt.conn r.index).path.rip = r.ip.toNat ∧
      (d.xpt.conn r.index).path.portB = onB r.port ∧ (d.xpt.conn r.index).resources = r.resources ∧
      ((s.d.port r.port).flow.held = none → d.xpt.cmOut = s.d.xpt.cmOut ++ [.rep r.index (d.xpt.conn r.index).qpn (d.xpt.conn r.index).sPsn0]) ∧
      ((s.d.port r.port).flow.held ≠ none → d.xpt.cmOut = s.d.xpt.cmOut ∧
        d.xpt.cmWait = s.d.xpt.cmWait ++ [(onB r.port, .rep r.index (d.xpt.conn r.index).qpn (d.xpt.conn r.index).sPsn0)]) ∧
      (r.alt = none → ∀ k, k ≠ r.index → d.xpt.conn k = s.d.xpt.conn k) ∧ s.d.SameBut ([.free, .portA, .portB] ++ eventParts) d) ∧
  (∀ (s : State) (r : CmReq) (x : RejReason), s.d.pwr.serving = true →
    (if s.d.xpt.cmPort = 0 ∨ r.serviceId.toNat ≠ 0x1060000 + s.d.xpt.cmPort then some .serviceId
      else if r.rc = false then some .transport
      else if r.pmtu ∉ [1024, 2048, 4096] ∨ (s.d.port r.port).maxFrm < r.pmtu + 102 then some .pathMtu
      else if r.resources = 0 ∨ s.d.cmOpen = false then some .consumer
      else if s.d.xpt.allTaken = true then some RejReason.noQp else none) = some x →
    exec (.cmReq r) s = .next { s with d := { s.d with xpt :=
      if (s.d.port r.port).flow.held = none then { s.d.xpt with cmOut := s.d.xpt.cmOut ++ [.rej x] }
      else { s.d.xpt with cmWait := s.d.xpt.cmWait ++ [(onB r.port, .rej x)] } } }) ∧
  (∀ (s : State) (r : CmReq), s.d.pwr.serving = false → exec (.cmReq r) s = .next s) ∧
  (∀ (s : State) (k : Nat) (x : Conn), s.d.conn? k = some x → x.pending = true →
    ∃ d y r, exec (.cmRtu k) s = .next { s with d := d } ∧ d.conn? k = some y ∧ y.state = .awaitingHello ∧ y.pending = false ∧
      x.Made y [r] ∧ r.kind = .send ∧ r.data = challengeMsg y s.d.xpt.sqMax s.d.xpt.cqMax ∧ r.data.length = 128 ∧
      y.challenge.length = 32 ∧ y.authF = 0 ∧ y.sendX = 0 ∧ y.dbX = 0 ∧ s.d.SameBut [.xpt, .free] d) ∧
  (∀ (s : State) (k : Nat) (x : Conn), s.d.conn? k = some x → x.pending = false → exec (.cmRtu k) s = .next s) ∧
  (∀ (s : State) (k sq cq : Nat) (h : Bytes) (x : Conn) (t : Tenant), s.d.conn? k = some x → x.state = .awaitingHello →
    s.d.kvx.store.tenant? (le h 4 4) = some t → s.d.hq.freeSq = some sq → s.d.hq.freeCq = some cq → helloShape h = true →
    slice h 8 32 = helloResponse t.key x h →
    ∃ d y a b, exec (.hello k h) s = .next { s with d := d } ∧ d.conn? k = some y ∧ y.state = .ready ∧ y.tenant = le h 4 4 ∧
      y.adminSq = sq ∧ y.adminCq = cq ∧ y.eventCq = cq ∧
      d.sq? sq = some a ∧ a.conn = k ∧ a.admin = true ∧ a.strict = true ∧ a.cq = cq ∧ a.addr = le h 0x28 8 ∧ a.depth = le h 0x34 2 ∧
      a.head = 0 ∧ a.tail = 0 ∧ d.cq? cq = some b ∧ b.conn = k ∧ b.addr = le h 0x38 8 ∧ b.depth = le h 0x36 2 ∧ b.head = 0 ∧ b.tail = 1 ∧
      d.kvx.store = s.d.kvx.store ∧ s.d.SameBut [.kvx, .hq, .xpt] d) ∧
  (∀ (s : State) (p : Path) (d : Drive) (k : Nat), s.reaches p 0x5038 = some d → d.sel p 0x5000 = k → (d.xpt.conn k).state = .free →
    (d.xpt.conn k).pending = false →
    ∃ d', exec (.connHold p) s = .next { s with d := d' } ∧ (d'.xpt.conn k).state = .held ∧ 2 ≤ (d'.xpt.conn k).qpn ∧
      (∀ j, j ≠ k → d'.xpt.conn j = d.xpt.conn j) ∧ d.SameBut [.xpt, .free] d') ∧
  (∀ (s : State) (p : Path) (d : Drive) (k : Nat), s.reaches p 0x5038 = some d → d.sel p 0x5000 = k →
    (d.xpt.conn k).state ≠ .free ∨ (d.xpt.conn k).pending = true →
    ∃ d', exec (.connHold p) s = .next { s with d := d' } ∧ d'.xpt.conn k = { d.xpt.conn k with cmdErr := true } ∧ d.SameBut [.xpt] d') ∧
  (∀ (s : State) (p : Path) (d : Drive) (k : Nat), s.reaches p 0x5038 = some d → d.sel p 0x5000 = k → (d.xpt.conn k).state = .held →
    3 ≤ (d.xpt.conn k).path.pmtu → (d.xpt.conn k).path.pmtu ≤ 5 →
    ∃ d' r, exec (.connProvision p) s = .next { s with d := d' } ∧ (d'.xpt.conn k).state = .awaitingHello ∧
      (d'.xpt.conn k).preprov = true ∧ (d.xpt.conn k).Made (d'.xpt.conn k) [r] ∧ r.kind = .send ∧ r.data.length = 128 ∧
      d.SameBut ([.free, .portA, .portB] ++ eventParts) d') ∧
  (∀ (s : State) (p : Path) (d : Drive) (k : Nat), s.reaches p 0x5500 = some d → d.sel p 0x5000 = k → (d.xpt.conn k).state = .held →
    ∃ d', exec (.altPathArm p) s = .next { s with d := d' } ∧ d'.xpt.net k = { d.xpt.net k with altArm := true } ∧
      d'.xpt.conns = d.xpt.conns ∧ d.SameBut [.xpt] d')

/-- The ways a connection ends (R98, R100, R130, R131, R439).
The model's choices in it, which no rule of the spec states: what becomes of unarrived entries, reads and watches is read as in log entry
48. -/
def Obligations.ConnectionEnds : Prop :=
  (∀ (s : State) (k : Nat) (x : Conn), s.d.conn? k = some x → x.state = .ready ∨ x.state = .awaitingHello →
    (∃ d, exec (.cmDreq k) s = .next { s with d := d } ∧ s.d.Closes k false d) ∧
    (∀ (b : Byte) (ra : Bool), ∃ d y, exec (.invalidRequest k b ra) s = .next { s with d := d } ∧ s.d.Closes k false d ∧
      d.xpt.badReq = wrap32 (s.d.xpt.badReq + 1) ∧ d.events 0x083 = wrap32 (s.d.events 0x083 + 1) ∧ d.conn? k = some y ∧
      y.authF = (if x.state = .awaitingHello then wrap32 (x.authF + 1) else x.authF))) ∧
  (∀ (s : State) (k : Nat) (x : Conn), s.d.conn? k = some x → x.state = .awaitingHello →
    x.since + 1000000 * s.d.xpt.helloTo ≤ s.d.clk.life →
    ∃ d y, exec (.helloTimeout k) s = .next { s with d := d } ∧ s.d.Closes k false d ∧ d.conn? k = some y ∧ y.authF = wrap32 (x.authF + 1) ∧
      d.events 0x080 = wrap32 (s.d.events 0x080 + 1)) ∧
  (∀ (s : State) (p : Path) (d : Drive) (k : Nat) (x : Conn), s.reaches p 0x5038 = some d → d.sel p 0x5000 = k → d.conn? k = some x →
    x.state = .ready ∨ x.state = .awaitingHello →
    ∃ d', exec (.connClose p) s = .next { s with d := d' } ∧ d.Closes k false d') ∧
  (∀ (s : State) (p : Path) (d : Drive) (k : Nat), s.reaches p 0x5038 = some d → d.sel p 0x5000 = k → (d.xpt.conn k).state = .held →
    ∃ d', exec (.connRelease p) s = .next { s with d := d' } ∧ (d'.xpt.conn k).state = .free ∧ (d'.xpt.conn k).pending = false ∧
      (∀ j, j ≠ k → d'.xpt.conn j = d.xpt.conn j) ∧ d.SameBut [.xpt] d') ∧
  (∀ (s : State) (k : Nat) (x : Conn), s.d.conn? k = some x → x.state = .ready ∨ x.state = .closing →
    ∃ d y, exec (.sendAfterHello k) s = .next { s with d := d } ∧ d.conn? k = some y ∧ y.state = x.state ∧
      y.sendX = wrap32 (x.sendX + 1) ∧ d.events 0x084 = wrap32 (s.d.events 0x084 + 1) ∧ s.d.SameBut eventParts d) ∧
  (∀ (s : State) (k : Nat) (x : Conn), s.d.conn? k = some x → x.state = .closing → (∀ c ∈ s.d.kvx.ctxs, c.conn = k → c.settled = true) →
    ∃ d, exec (.connectionFree k) s = .next { s with d := d } ∧
      d.xpt.conn k = { Conn.fresh k with cmdErr := x.cmdErr, authF := x.authF, sendX := x.sendX, dbX := x.dbX } ∧
      (∀ q ∈ d.hq.sqs, q.conn ≠ k) ∧ (∀ q ∈ d.hq.cqs, q.conn ≠ k) ∧ (∀ c ∈ d.kvx.ctxs, c.conn ≠ k) ∧
      d.kvx.store = s.d.kvx.store ∧ s.d.SameBut [.kvx, .hq, .xpt, .dmc] d) ∧
  (∀ (s : State) (k : Nat) (x : Conn), s.d.conn? k = some x → x.state = .closing → (∃ c ∈ s.d.kvx.ctxs, c.conn = k ∧ c.settled = false) →
    exec (.connectionFree k) s = .next s)

/-- Doorbell writes (R98, R100, R120, R121, R261).
The model's choices in it, which no rule of the spec states: the doorbell's host memory stands for the schedule (log 3). -/
def Obligations.Doorbells : Prop :=
  (∀ (s : State) (k off : Nat) (data : Bytes) (x : Conn) (y : Sq), s.d.conn? k = some x → x.state = .ready → s.d.sq? (off / 8) = some y →
    y.conn = k → data.length = 8 → off % 8 = 0 → le data 2 2 = 0 →
    (newer (le data 4 4) y.dbSeq = true → le data 0 2 < y.depth → y.tailDist ≤ ringDist y.depth y.judgeHead (le data 0 2) →
      ∃ d z, exec (.sqDoorbell k off data) s = .next { s with d := d } ∧ d.sq? y.id = some z ∧
        z.tail = y.tail + (ringDist y.depth y.judgeHead (le data 0 2) - (y.tail - y.judgeHead) % y.depth) ∧ z.dbSeq = le data 4 4 ∧
        z.head = y.head ∧ z.fetched = y.fetched ∧ z.faulted = y.faulted ∧ z.freeze = y.freeze ∧
        (∃ w, d.conn? k = some w ∧ w.state = .ready ∧ w.dbX = x.dbX) ∧
        d.kvx = { s.d.kvx with doorSeq := s.d.kvx.doorSeq + 1 } ∧ d.hq.cqs = s.d.hq.cqs ∧ s.d.SameBut [.kvx, .hq, .xpt] d) ∧
    (newer (le data 4 4) y.dbSeq = false →
      ∃ d, exec (.sqDoorbell k off data) s = .next { s with d := d } ∧ d.sq? y.id = some { y with stale := wrap32 (y.stale + 1) } ∧
        s.d.SameBut [.hq, .xpt] d) ∧
    (newer (le data 4 4) y.dbSeq = true →
      y.depth ≤ le data 0 2 ∨ ringDist y.depth y.judgeHead (le data 0 2) < (y.tail - y.judgeHead) % y.depth →
      ∃ d, exec (.sqDoorbell k off data) s = .next { s with d := d } ∧ d.sq? y.id = some { y with bad := wrap32 (y.bad + 1) } ∧
        d.events 0x092 = wrap32 (s.d.events 0x092 + 1) ∧ s.d.SameBut eventParts d)) ∧
  (∀ (s : State) (k off : Nat) (data : Bytes) (x : Conn) (y : Cq), s.d.conn? k = some x → x.state = .ready →
    s.d.cq? ((off - 0x20000) / 8) = some y → y.conn = k → data.length = 8 → off % 8 = 0 → 0x20000 ≤ off → le data 2 2 = 0 →
    (newer (le data 4 4) y.dbSeq = true → le data 0 2 < y.depth → ringDist y.depth y.head (le data 0 2) ≤ y.tail - y.head →
      ∃ d, exec (.cqDoorbell k off data) s = .next { s with d := d } ∧
        d.cq? y.id = some { y with head := y.head + ringDist y.depth y.head (le data 0 2), dbSeq := le data 4 4 } ∧
        d.hq.sqs = s.d.hq.sqs ∧ s.d.SameBut [.hq, .xpt] d) ∧
    (newer (le data 4 4) y.dbSeq = false →
      ∃ d, exec (.cqDoorbell k off data) s = .next { s with d := d } ∧ d.cq? y.id = some { y with stale := wrap32 (y.stale + 1) } ∧
        s.d.SameBut [.hq, .xpt] d) ∧
    (newer (le data 4 4) y.dbSeq = true → y.depth ≤ le data 0 2 ∨ y.tail - y.head < ringDist y.depth y.head (le data 0 2) →
      ∃ d z, exec (.cqDoorbell k off data) s = .next { s with d := d } ∧ d.cq? y.id = some z ∧ z.bad = wrap32 (y.bad + 1) ∧
        z.head = y.head ∧ z.dbSeq = y.dbSeq ∧ d.events 0x092 = wrap32 (s.d.events 0x092 + 1) ∧ s.d.SameBut eventParts d)) ∧
  (∀ (s : State) (k off : Nat) (data : Bytes) (x : Conn), s.d.conn? k = some x → x.state ≠ .awaitingHello →
    (x.state ≠ .ready ∨ data.length ≠ 8 ∨ off % 8 ≠ 0 ∨ le data 2 2 ≠ 0 ∨ (∀ y, s.d.sq? (off / 8) = some y → y.conn ≠ k) →
      ∃ d y, exec (.sqDoorbell k off data) s = .next { s with d := d } ∧ d.conn? k = some y ∧ y.dbX = wrap32 (x.dbX + 1) ∧
        y.state = x.state ∧ s.d.SameBut [.xpt] d) ∧
    (x.state ≠ .ready ∨ data.length ≠ 8 ∨ off % 8 ≠ 0 ∨ off < 0x20000 ∨ le data 2 2 ≠ 0 ∨
        (∀ y, s.d.cq? ((off - 0x20000) / 8) = some y → y.conn ≠ k) →
      ∃ d y, exec (.cqDoorbell k off data) s = .next { s with d := d } ∧ d.conn? k = some y ∧ y.dbX = wrap32 (x.dbX + 1) ∧
        y.state = x.state ∧ s.d.SameBut [.xpt] d)) ∧
  (∀ (s : State) (k off : Nat) (data : Bytes) (x : Conn), s.d.conn? k = some x → x.state = .awaitingHello →
    (∃ d y, exec (.sqDoorbell k off data) s = .next { s with d := d } ∧ s.d.Closes k false d ∧ d.conn? k = some y ∧
      y.dbX = wrap32 (x.dbX + 1) ∧ y.authF = wrap32 (x.authF + 1) ∧ d.hq.sqs = s.d.hq.sqs) ∧
    (∃ d y, exec (.cqDoorbell k off data) s = .next { s with d := d } ∧ s.d.Closes k false d ∧ d.conn? k = some y ∧
      y.dbX = wrap32 (x.dbX + 1) ∧ y.authF = wrap32 (x.authF + 1) ∧ d.hq.sqs = s.d.hq.sqs)) ∧
  (∀ (s : State) (k off : Nat) (data : Bytes), s.d.conn? k = none →
    exec (.sqDoorbell k off data) s = .next s ∧ exec (.cqDoorbell k off data) s = .next s)

/-- The RC transport of the drive's requests (R117, R440).
The model's choices in it, which no rule of the spec states: the drive's side of the RC transport where R439-R440 say no more is PRESUMED
(log 49). -/
def Obligations.Retransmission : Prop :=
  (∀ (s : State) (k : Nat) (psn : BitVec 24) (x : Conn), s.d.conn? k = some x → (∀ r ∈ x.unacked, r.wire = true) →
    ∃ d y, exec (.roceAck k psn) s = .next { s with d := d } ∧ d.conn? k = some y ∧
      y.unacked.map Req.unsent = (x.unacked.drop (x.unacked.takeWhile (Req.covered psn.toNat)).length).map Req.unsent ∧ y.retries = 0 ∧ y.rnrs = 0 ∧ y.state = x.state ∧
      (∀ r ∈ x.unacked.takeWhile (Req.covered psn.toNat), ∀ cq q o, r.what = .cqe cq (some (q, o)) → d.ctx? q o = none) ∧
      d.kvx.store = s.d.kvx.store ∧ s.d.SameBut [.kvx, .xpt] d) ∧
  (∀ (s : State) (k : Nat) (psn : BitVec 24) (x : Conn), s.d.conn? k = some x → x.unacked ≠ [] →
    x.unacked.takeWhile (Req.covered ((psn.toNat + 2 ^ 24 - 1) % 2 ^ 24)) = [] → x.retries < x.path.retry →
    ∃ d y, exec (.nakSequence k psn) s = .next { s with d := d } ∧ d.conn? k = some y ∧ x.Made y [] ∧
      y.retries = x.retries + 1 ∧ d.xpt.nakRx = wrap32 (s.d.xpt.nakRx + 1) ∧ d.Resent k ∧ s.d.SameBut [.xpt] d) ∧
  (∀ (s : State) (k : Nat) (psn : BitVec 24) (x : Conn), s.d.conn? k = some x → x.path.rnrRetry ≠ 7 → x.rnrs < x.path.rnrRetry →
    ∃ d y, exec (.rnrNak k psn) s = .next { s with d := d } ∧ d.conn? k = some y ∧ x.Made y [] ∧ y.rnrs = x.rnrs + 1 ∧
      d.xpt.nakRx = wrap32 (s.d.xpt.nakRx + 1) ∧ d.Resent k ∧ s.d.SameBut [.xpt] d) ∧
  (∀ (s : State) (k : Nat) (x : Conn), s.d.conn? k = some x → x.unacked ≠ [] →
    (x.retries < x.path.retry → ∃ d y, exec (.ackTimeout k) s = .next { s with d := d } ∧ d.conn? k = some y ∧ x.Made y [] ∧
      y.retries = x.retries + 1 ∧ d.Resent k ∧ s.d.SameBut [.xpt] d) ∧
    (x.path.retry ≤ x.retries → (s.d.xpt.net k).alt = .armed →
      ∃ d, exec (.ackTimeout k) s = .next { s with d := d } ∧ s.d.Migrates k d) ∧
    (x.path.retry ≤ x.retries → (s.d.xpt.net k).alt ≠ .armed → x.state = .ready ∨ x.state = .awaitingHello →
      ∃ d, exec (.ackTimeout k) s = .next { s with d := d } ∧ s.d.Closes k true d) ∧
    (x.path.retry ≤ x.retries → (s.d.xpt.net k).alt ≠ .armed → x.state = .closing →
      ∃ d y, exec (.ackTimeout k) s = .next { s with d := d } ∧ d.conn? k = some y ∧ y.dead = true ∧ y.unacked = [] ∧
        (∀ c ∈ d.kvx.ctxs, c.conn = k → c.arrived = true) ∧ s.d.SameBut [.kvx, .xpt, .dmc] d)) ∧
  (∀ (s : State) (k : Nat) (psn : BitVec 24) (ahead : Bool) (x : Conn), s.d.conn? k = some x →
    ∃ d y p, exec (.duplicateRequest k psn ahead) s = .next { s with d := d } ∧ d.conn? k = some y ∧ x.Made y [] ∧ y.rPsn = x.rPsn ∧
      y.state = x.state ∧ d.HasSent k p ∧ p.op = 0x11 ∧ p.psn = (if ahead then x.rPsn else (x.rPsn + 2 ^ 24 - 1) % 2 ^ 24) ∧
      p.ext = beBytes 1 (if ahead then 0x60 else 0x1F) ++ beBytes 3 (x.msn % 2 ^ 24) ∧ s.d.SameBut [.xpt] d) ∧
  (∀ (s : State) (k q : Nat) (psn : BitVec 24) (x : Conn) (r : Req) (own : Option (Nat × Nat)) (y : Cq), s.d.conn? k = some x →
    x.unacked.find? (fun r => r.psn == psn.toNat && r.wire && r.kind == .write) = some r → r.what = .cqe q own → s.d.cq? q = some y →
    ∃ d z, exec (.rdmaWriteRefused k psn) s = .next { s with d := d } ∧ d.cq? q = some z ∧ z.faulted = true ∧
      d.events 0x091 = wrap32 (s.d.events 0x091 + 1) ∧ s.d.SameBut eventParts d) ∧
  (∀ (s : State) (k q o : Nat) (psn : BitVec 24) (x : Conn) (r : Req) (c : Ctx), s.d.conn? k = some x →
    x.unacked.find? (fun r => r.psn == psn.toNat && r.wire && r.kind == .write) = some r → r.what = .value q o → s.d.ctx? q o = some c →
    s.d.soleCtx q o = true → c.settled = false → c.marked = none → c.discarded = false →
    ∃ d c', exec (.rdmaWriteRefused k psn) s = .next { s with d := d } ∧ d.ctx? q o = some c' ∧ c'.settled = true ∧
      c'.res.status = 0x6001 ∧ c'.res.stage = 9 ∧ c'.res.b = leBytes 8 r.addr)

/-- R441-R445. Rates are in tenths of a Gb/s.
The model's choices in it, which no rule of the spec states: arming and migration are read as in log entries 53 and 54. -/
def Obligations.CongestionAndPaths : Prop :=
  (∀ (s : State) (k : Nat) (x : Conn), s.d.conn? k = some x → s.d.xpt.npEn = true →
    (∀ t, (s.d.xpt.net k).lastCnp = some t → t + 1000 * s.d.xpt.cnpUs ≤ s.d.clk.life) →
    ∃ d p, exec (.ceMarkedPacket k) s = .next { s with d := d } ∧ (d.xpt.net k).lastCnp = some s.d.clk.life ∧ d.HasSent k p ∧ p.op = 0x81 ∧
      (x.txq = [] → s.d.holds x = false → 8160 ≤ x.tokens → d.xpt.cnpTx = wrap32 (s.d.xpt.cnpTx + 1)) ∧ s.d.SameBut [.xpt] d) ∧
  (∀ (s : State) (k t : Nat), (s.d.xpt.net k).lastCnp = some t → s.d.clk.life < t + 1000 * s.d.xpt.cnpUs →
    exec (.ceMarkedPacket k) s = .next s) ∧
  (∀ (s : State) (k : Nat) (x : Conn), s.d.conn? k = some x →
    ∃ d, exec (.cnpReceive k) s = .next { s with d := d } ∧ d.xpt.cnpRx = wrap32 (s.d.xpt.cnpRx + 1) ∧
      (d.xpt.net k).rate = (if s.d.xpt.rpEn then max (10 * s.d.xpt.minRate) ((s.d.xpt.net k).rate * (8 - s.d.xpt.dec) / 8)
        else (s.d.xpt.net k).rate) ∧
      (d.xpt.net k).cnps = wrap32 ((s.d.xpt.net k).cnps + 1) ∧ d.xpt.conns = s.d.xpt.conns ∧ s.d.SameBut [.xpt] d) ∧
  (∀ (s : State) (k : Nat) (x : Conn), s.d.conn? k = some x → s.d.xpt.rpEn = true →
    (∀ t, (s.d.xpt.net k).lastDec = some t → t + 1000 * s.d.xpt.incUs ≤ s.d.clk.life) →
    ∃ d, exec (.rateRecoveryTimer k) s = .next { s with d := d } ∧
      d.xpt.net k = { s.d.xpt.net k with
        rate := min (s.d.port (portOf x.path.portB)).lineRate ((s.d.xpt.net k).rate + 10 * s.d.xpt.inc), lastDec := some s.d.clk.life } ∧
      d.xpt.conns = s.d.xpt.conns ∧ s.d.SameBut [.xpt] d) ∧
  (∀ (s : State) (k : Nat) (x : Conn), s.d.conn? k = some x → (s.d.xpt.net k).alt = .armed →
    ∃ d, exec (.alternatePathPacket k) s = .next { s with d := d } ∧ s.d.Migrates k d) ∧
  (∀ (s : State) (k m : Nat) (x : Conn) (a : AltPath), s.d.conn? k = some x → x.state = .ready ∨ x.state = .awaitingHello →
    onB a.port ≠ x.path.portB → (s.d.port (portOf (onB a.port))).nextHop 0 a.ip.toNat = some m →
    (s.d.port (portOf x.path.portB)).flow.held = none →
    ∃ d, exec (.cmLap k a) s = .next { s with d := d } ∧ (d.xpt.net k).alt = .armed ∧ (d.xpt.net k).altPortB = onB a.port ∧
      (d.xpt.net k).altIp = a.ip.toNat ∧ (d.xpt.net k).altMac = m ∧ d.xpt.conns = s.d.xpt.conns ∧
      d.xpt.cmOut = s.d.xpt.cmOut ++ [.apr k] ∧ s.d.SameBut [.xpt, portPart (portOf (onB a.port))] d) ∧
  (∀ (s : State) (k : Nat) (x : Conn) (a : AltPath), s.d.conn? k = some x → x.state = .ready ∨ x.state = .awaitingHello →
    onB a.port = x.path.portB → (s.d.port (portOf x.path.portB)).flow.held = none →
    exec (.cmLap k a) s = .next { s with d := { s.d with xpt := { s.d.xpt with cmOut := s.d.xpt.cmOut ++ [.apr k] } } }) ∧
  (∀ s : State, s.d.clk.life < s.d.xpt.hopAt + 60000000000 → exec .nextHopRefresh s = .next s) ∧
  (∀ (s : State) (n : ConnNet) (m : Nat), s.d.xpt.hopAt + 60000000000 ≤ s.d.clk.life →
    (s.d.xpt.nets.filter fun n => n.alt == .armed) = [n] → (s.d.port (portOf n.altPortB)).nextHop n.altGiven n.altIp = some m →
    ∃ d, exec .nextHopRefresh s = .next { s with d := d } ∧ (d.xpt.net n.idx).altMac = m ∧ d.xpt.hopAt = s.d.clk.life ∧
      (n.altGiven ≠ 0 → d.xpt.conns = s.d.xpt.conns ∧ s.d.SameBut [.xpt, .portA, .portB] d))

/-- R418-R422, R447-R450. The drive's identity and MAC are constants that nothing here reads; `f` is a frame that carries them.
The model's choices in it, which no rule of the spec states: link loss and migration (log 54), whether a degraded lane is retrained (log 164), MAC addresses in event data (log 55). -/
def Obligations.LinksAndJack : Prop :=
  (∀ (s : State) (p : Port) (mode : Nat) (fec : Bool), (s.d.port p).link.up = false → (s.d.port p).flow.held = none → 1 ≤ mode → mode ≤ 5 →
    (if (s.d.port p).link.run.anEn = true then bit (s.d.port p).link.run.adv (mode - 1) = true else mode = (s.d.port p).link.run.mode) →
    s.d.islState (if onB p then 3 else 2) = 0 →
    ∃ d, exec (.linkUp p mode fec) s = .next { s with d := d } ∧
      (d.port p).link = { (s.d.port p).link with
        up := true, train := false, res := mode, fecOn := mode != 5 || (s.d.port p).link.run.fec25 || fec } ∧
      d.events (portSrc p) = wrap32 (s.d.events (portSrc p) + 1) ∧
      ((s.d.port p).ip4 ≠ 0 → (s.d.port p).ip6 = 0 → 1518 ≤ (s.d.port p).maxFrm → (d.port p).out = (s.d.port p).out ++
        [ethFrame broadcast (macOf p) 0x0806 (s.d.port p).mgmtTag (arpBody 1 (macOf p) (s.d.port p).ip4 0 (s.d.port p).ip4)]) ∧
      s.d.SameBut (portParts p) d) ∧
  (∀ (s : State) (p : Port), (s.d.port p).link.up = true →
    ∃ d, exec (.linkDown p) s = .next { s with d := d } ∧
      (d.port p).link = { (s.d.port p).link with up := false, train := true, downs := wrap32 ((s.d.port p).link.downs + 1) } ∧
      (d.port p).flow = { (s.d.port p).flow with sent := false, held := none } ∧
      d.events (portSrc p) = wrap32 (s.d.events (portSrc p) + 1) ∧
      (∀ c, (s.d.xpt.conns.filter fun c => portOf c.path.portB == p && (s.d.xpt.net c.idx).alt == .armed) = [c] →
        (d.xpt.conn c.idx).path.portB = (s.d.xpt.net c.idx).altPortB ∧ (d.xpt.net c.idx).alt = .migrated ∧
        d.xpt.migr = wrap32 (s.d.xpt.migr + 1) ∧ d.events 0x082 = wrap32 (s.d.events 0x082 + 1)) ∧
      s.d.SameBut (portParts p) d) ∧
  (∀ (s : State) (p : Path) (q : Port) (v : Word) (d : Drive), s.reaches p (netBase q + 8) = some d → bit v.toNat 0 = true →
    (d.port q).link.up = true →
    ∃ d', exec (.linkRestart p q v) s = .next { s with d := d' } ∧ (d'.port q).link.up = false ∧ (d'.port q).link.train = true ∧
      (d'.port q).link.run.mode = (d.port q).link.mode ∧ (d'.port q).link.run.adv = (d.port q).link.adv ∧
      (d'.port q).link.run.anEn = (d.port q).link.anEn ∧ (d'.port q).link.run.fec25 = (d.port q).link.fec25 ∧
      d'.events (portSrc q) = wrap32 (d.events (portSrc q) + 1) ∧ d.SameBut (portParts q) d') ∧
  (∀ (s : State) (p : Port) (lane : Bool), ∃ d, exec (.netFecdeg p lane) s = .next { s with d := d } ∧
    d.events (portSrc p + 3) = wrap32 (s.d.events (portSrc p + 3) + 1) ∧
    ((s.d.port p).link.up = false → s.d.SameBut (.free :: eventParts) d) ∧
    ((s.d.port p).link.up = true → s.d.upd.actions = [] →
      if Config.fecRetrains s.d.free = true then
        (d.port p).link.up = false ∧ (d.port p).link.train = true ∧ (∃ a, d.upd.actions = [a] ∧ a.code = 5 ∧ a.target = portLane p lane ∧
          a.state = 0 ∧ a.host = false ∧ a.serial = s.d.upd.actSerial + 1) ∧
        s.d.SameBut ([.portA, .portB, .upd, .free] ++ eventParts) d
      else s.d.SameBut (.free :: eventParts) d)) ∧
  (∀ (s : State) (f : Bytes), s.d.pwr.cur = 8 → s.d.jack.armed = true → s.d.jack.link = true → s.d.jack.lock = false → 64 ≤ f.length → f.length ≤ 128 →
    be f 0 6 = Config.macA → etherType f = 0x88B5 → byteAt (network f) 0 = 0x10 → byteAt (network f) 1 = 1 → le (network f) 2 2 = 0 →
    le (network f) 4 8 = Config.identity →
    (le (network f) 12 8 = s.d.jack.code →
      ∃ d, exec (.wakeFrame f true) s = .next { s with d := d } ∧ d.jack = { s.d.jack with ok := wrap32 (s.d.jack.ok + 1) } ∧
        d.pwr.wakeSrc = 2 ∧ d.pwr.resume.isSome = true ∧ d.events 0x019 = wrap32 (s.d.events 0x019 + 1)) ∧
    (le (network f) 12 8 ≠ s.d.jack.code →
      ∃ d, exec (.wakeFrame f true) s = .next { s with d := d } ∧ d.jack.bad = wrap32 (s.d.jack.bad + 1) ∧ d.jack.ok = s.d.jack.ok ∧
        d.jack.lock = decide (15 ≤ (s.d.jack.badRun.filter fun t => decide (s.d.clk.rtc < t + 1000000000)).length) ∧
        d.events 0x046 = (if d.jack.lock = true then wrap32 (s.d.events 0x046 + 1) else s.d.events 0x046) ∧
        s.d.SameBut (.jack :: eventParts) d)) ∧
  (∀ (s : State) (f : Bytes) (ok : Bool), s.d.pwr.cur ≠ 8 ∨ s.d.jack.armed = false ∨ s.d.jack.link = false →
    exec (.wakeFrame f ok) s = .next s) ∧
  (∀ s : State, (∀ t ∈ s.d.jack.badRun, t + 1000000000 ≤ s.d.clk.rtc) →
    exec .jackLockEnd s = .next { s with d := { s.d with jack := { s.d.jack with lock := false, badRun := [] } } }) ∧
  (∀ (s : State) (t : Nat), t ∈ s.d.jack.badRun → s.d.clk.rtc < t + 1000000000 → exec .jackLockEnd s = .next s) ∧
  (∀ (s : State) (up : Bool), s.d.pwr.cur = 8 → s.d.jack.armed = true →
    exec (.jackLinkRetry up) s = .next { s with d := { s.d with jack := { s.d.jack with link := up } } }) ∧
  (∀ (s : State) (p : Path) (hi : Bool) (v : Word) (d : Drive), s.reaches p (if hi then 0x3090 else 0x308C) = some d →
    d.jack.code < 2 ^ 64 →
    exec (.wakecodeWrite p hi v) s = .next { s with d := { d with jack := { d.jack with
      code := if hi then v.toNat * 2 ^ 32 + d.jack.code % 2 ^ 32 else d.jack.code / 2 ^ 32 * 2 ^ 32 + v.toNat } } })

/-- R423, R424.
The model's choices in it, which no rule of the spec states: what a neighbour is learnt from and how an answer arms a path (log 53), the
counted frames (log 50). -/
def Obligations.NeighborsAnswered : Prop :=
  (∀ (s : State) (p : Port) (ip : BitVec 32) (mac : BitVec 48) (target : BitVec 32), (s.d.port p).flow.held = none → 1518 ≤ (s.d.port p).maxFrm →
    ∃ d, exec (.arpRequest p ip mac target) s = .next { s with d := d } ∧
      (d.port p).neighs = ((s.d.port p).learn (mapped ip.toNat) mac.toNat).neighs ∧
      (d.port p).out = (s.d.port p).out ++
        (if (s.d.port p).link.up = true ∧ (s.d.port p).ip4 ≠ 0 ∧ target.toNat = (s.d.port p).ip4 then
          [ethFrame mac.toNat (macOf p) 0x0806 (s.d.port p).mgmtTag (arpBody 2 (macOf p) (s.d.port p).ip4 mac.toNat ip.toNat)] else []) ∧
      s.d.SameBut (portParts p) d) ∧
  (∀ (s : State) (p : Port) (ip : BitVec 128) (mac : BitVec 48) (target : BitVec 128), ip ≠ 0 → (s.d.port p).flow.held = none →
    1518 ≤ (s.d.port p).maxFrm →
    ∃ d, exec (.neighborSolicitation p ip mac target) s = .next { s with d := d } ∧
      (d.port p).neighs = ((s.d.port p).learn ip.toNat mac.toNat).neighs ∧
      (d.port p).out = (s.d.port p).out ++
        (if (s.d.port p).link.up = true ∧ (s.d.port p).ip6 ≠ 0 ∧ target.toNat = (s.d.port p).ip6 then
          [ethFrame mac.toNat (macOf p) 0x86DD (s.d.port p).mgmtTag (icmp6 (s.d.port p).ip6 ip.toNat
            ([136, 0, 0, 0] ++ beBytes 4 0x60000000 ++ beBytes 16 (s.d.port p).ip6 ++ [2, 1] ++ beBytes 6 (macOf p)))] else []) ∧
      s.d.SameBut (portParts p) d) ∧
  (∀ (s : State) (p : Port) (ip : BitVec 128) (mac : BitVec 48) (m : Bytes), ip.toNat / 2 ^ 32 = 0xFFFF → (s.d.port p).ip4 ≠ 0 →
    (s.d.port p).link.up = true → (s.d.port p).flow.held = none →
    ((s.d.port p).echo.1 = s.d.clk.life / 1000000000 → (s.d.port p).echo.2 < 1000) →
    (ethFrame mac.toNat (macOf p) 0x0800 (s.d.port p).mgmtTag
        (icmp4 (s.d.port p).ip4 (ip.toNat % 2 ^ 32) ([0, 0, 0, 0] ++ m))).length ≤ (s.d.port p).maxFrm →
    ∃ d, exec (.icmpEcho p ip mac m) s = .next { s with d := d } ∧ (d.port p).echo.1 = s.d.clk.life / 1000000000 ∧
      (d.port p).out = (s.d.port p).out ++ [ethFrame mac.toNat (macOf p) 0x0800 (s.d.port p).mgmtTag
        (icmp4 (s.d.port p).ip4 (ip.toNat % 2 ^ 32) ([0, 0, 0, 0] ++ m))] ∧ s.d.SameBut (portParts p) d) ∧
  (∀ (s : State) (p : Port) (ip : BitVec 128) (mac : BitVec 48) (m : Bytes), (s.d.port p).echo.1 = s.d.clk.life / 1000000000 →
    1000 ≤ (s.d.port p).echo.2 → exec (.icmpEcho p ip mac m) s = .next s) ∧
  (∀ (s : State) (p : Port) (ip : BitVec 128) (n : Neigh),
    ((s.d.port p).neighs.find? fun n => n.ip == ip.toNat && n.mac.isNone) = some n →
    (s.d.clk.life < n.asked + 1000000000 → exec (.addressResolutionRetry p ip) s = .next s) ∧
    (n.asked + 1000000000 ≤ s.d.clk.life → n.tries ≠ 0 → ip.toNat / 2 ^ 32 = 0xFFFF → (s.d.port p).link.up = true →
      (s.d.port p).flow.held = none → 1518 ≤ (s.d.port p).maxFrm →
      ∃ d, exec (.addressResolutionRetry p ip) s = .next { s with d := d } ∧
        (d.port p).out = (s.d.port p).out ++ [ethFrame broadcast (macOf p) 0x0806 (s.d.port p).mgmtTag
          (arpBody 1 (macOf p) (s.d.port p).ip4 0 (ip.toNat % 2 ^ 32))] ∧ s.d.SameBut (portParts p) d) ∧
    (n.asked + 1000000000 ≤ s.d.clk.life → n.tries = 0 → ∃ d, exec (.addressResolutionRetry p ip) s = .next { s with d := d } ∧ (∀ m ∈ (d.port p).neighs, m.ip ≠ ip.toNat) ∧
      s.d.SameBut ([.kvx, .idx, .dmc] ++ portParts p) d))

/-- R434-R437.
The model's choices in it, which no rule of the spec states: receive buffering and its drain are the choice of log entry 52, `TXCT.CUR` is
raised with MIN (log 82). -/
def Obligations.FlowControl : Prop :=
  (∀ (s : State) (p : Port) (q : Nat), ∃ d, exec (.pauseReceive p (.pause q)) s = .next { s with d := d } ∧
    (d.port p).flow = (if (s.d.port p).flow.fc = 1 ∧ (s.d.port p).flow.storm = false then (s.d.port p).flow.heldFor q s.d.clk.life
      else (s.d.port p).flow) ∧ s.d.SameBut (portParts p) d) ∧
  (∀ (s : State) (p : Port) (v : BitVec 8) (q : Nat), ∃ d, exec (.pauseReceive p (.pfc v q)) s = .next { s with d := d } ∧
    (d.port p).flow = (if (s.d.port p).flow.fc = 2 ∧ (s.d.port p).flow.storm = false ∧ v.getLsbD (s.d.port p).flow.prio = true then
      (s.d.port p).flow.heldFor q s.d.clk.life else (s.d.port p).flow) ∧ s.d.SameBut (portParts p) d) ∧
  (∀ (s : State) (p : Port) (q : Nat), (s.d.port p).flow.held = some q →
    (s.d.clk.life < (s.d.port p).flow.heldAt + 5120 * q / (s.d.port p).lineRate → exec (.pauseExpiry p) s = .next s) ∧
    ((s.d.port p).flow.heldAt + 5120 * q / (s.d.port p).lineRate ≤ s.d.clk.life → (s.d.port p).txq = [] →
      ∃ d, exec (.pauseExpiry p) s = .next { s with d := d } ∧
        d.port p = { s.d.port p with flow := { (s.d.port p).flow with held := none } } ∧
        d.xpt.cmOut = s.d.xpt.cmOut ++ (s.d.xpt.cmWait.filter fun m => m.1 == onB p).map (·.2) ∧ (∀ m ∈ d.xpt.cmWait, m.1 ≠ onB p) ∧
        s.d.SameBut [portPart p, .xpt] d)) ∧
  (∀ (s : State) (p : Port), (s.d.port p).flow.sent = true → (s.d.port p).flow.low * 1024 < (s.d.port p).fill →
    (s.d.port p).flow.fc = 1 → (s.d.port p).link.up = true → 1518 ≤ (s.d.port p).maxFrm →
    (s.d.port p).flow.sentAt + 5120 * (s.d.port p).flow.quanta / (s.d.port p).lineRate / 2 ≤ s.d.clk.life →
    ∃ d, exec (.pauseRefreshTimer p) s = .next { s with d := d } ∧ (d.port p).flow = { (s.d.port p).flow with sentAt := s.d.clk.life } ∧
      (d.port p).out = (s.d.port p).out ++ [ethFrame 0x0180C2000001 (macOf p) 0x8808 none
        (beBytes 2 1 ++ beBytes 2 (s.d.port p).flow.quanta)] ∧ s.d.SameBut (portParts p) d) ∧
  (∀ (s : State) (p : Port), (s.d.port p).flow.sent = false → exec (.pauseRefreshTimer p) s = .next s) ∧
  (∀ (s : State) (p : Port) (n : Nat), (∀ x ∈ (s.d.port p).rxq, x.1 < 32) →
    ∃ d, exec (.pauseRelease p n) s = .next { s with d := d } ∧ (d.port p).fill ≤ 1024 * n ∧
      (d.port p).flow.sent = (if (s.d.port p).flow.sent = false ∧ (s.d.port p).flow.fc ≠ 0 ∧ (s.d.port p).flow.high * 1024 < (d.port p).fill then true
        else if (s.d.port p).flow.sent = true ∧ (d.port p).fill < (s.d.port p).flow.low * 1024 then false else (s.d.port p).flow.sent) ∧
      s.d.SameBut (portParts p) d) ∧
  (∀ (s : State) (p : Port) (n : Nat), (s.d.port p).rxq = [] → (s.d.port p).flow.sent = true → 0 < (s.d.port p).flow.low →
    (s.d.port p).flow.fc = 1 → (s.d.port p).link.up = true → 1518 ≤ (s.d.port p).maxFrm →
    ∃ d, exec (.pauseRelease p n) s = .next { s with d := d } ∧
      (d.port p).flow = { (s.d.port p).flow with sent := false, sentAt := s.d.clk.life } ∧
      (d.port p).out = (s.d.port p).out ++ [ethFrame 0x0180C2000001 (macOf p) 0x8808 none (beBytes 2 1 ++ beBytes 2 0)] ∧
      s.d.SameBut (portParts p) d) ∧
  (∀ (s : State) (p : Port), (s.d.port p).flow.held.isSome = true → (s.d.port p).flow.heldFrom + 100000000 ≤ s.d.clk.life →
    ∃ d, exec (.netPausestorm p) s = .next { s with d := d } ∧
      (d.port p).flow = { (s.d.port p).flow with held := none, storm := true, stormAt := s.d.clk.life } ∧ (d.port p).txq = [] ∧
      d.events (portSrc p + 2) = wrap32 (s.d.events (portSrc p + 2) + 1) ∧ s.d.SameBut (portParts p) d) ∧
  (∀ (s : State) (p : Port), (s.d.port p).flow.held = none ∨ s.d.clk.life < (s.d.port p).flow.heldFrom + 100000000 →
    exec (.netPausestorm p) s = .next s) ∧
  (∀ (s : State) (p : Port), (s.d.port p).flow.stormAt + 100000000 ≤ s.d.clk.life →
    ∃ d, exec (.pausestormEnd p) s = .next { s with d := d } ∧
      d.port p = { s.d.port p with flow := { (s.d.port p).flow with storm := false } } ∧ s.d.SameBut [portPart p] d) ∧
  (∀ (s : State) (p : Port), (s.d.port p).flow.ctEn = true →
    ∃ d, exec (.txUnderrun p) s = .next { s with d := d } ∧
      (d.port p).flow = { (s.d.port p).flow with ctCur := min 7 ((s.d.port p).flow.ctCur + 1), stepAt := s.d.clk.life } ∧
      d.events (portSrc p + 4) = wrap32 (s.d.events (portSrc p + 4) + 1) ∧ s.d.SameBut (portParts p) d) ∧
  (∀ (s : State) (p : Port), (s.d.port p).flow.stepAt + 100000000 ≤ s.d.clk.life →
    ∃ d, exec (.cutThroughDecay p) s = .next { s with d := d } ∧
      d.port p = { s.d.port p with flow := { (s.d.port p).flow with stepAt := s.d.clk.life
                                                                    ctCur := (s.d.port p).flow.ctCur - (if (s.d.port p).flow.ctMin < (s.d.port p).flow.ctCur then 1 else 0) } } ∧
      s.d.SameBut [portPart p] d) ∧
  (∀ (s : State) (p : Port), s.d.clk.life < (s.d.port p).flow.stepAt + 100000000 → exec (.cutThroughDecay p) s = .next s)

/-- R425-R433.
The model's choices in it, which no rule of the spec states: the order of the checks of a frame is that of log entry 51, the statistics
count what log entry 50 says. -/
def Obligations.FramesAndFilters : Prop :=
  (∀ (s : State) (p : Port) (f : Bytes) (a b : Bool), (s.d.port p).link.up = false → exec (.frameReceive p f a b) s = .next s) ∧
  (∀ (s : State) (p : Port) (f : Bytes) (a b : Bool), (s.d.port p).link.up = true →
    ∃ d, exec (.frameReceive p f a b) s = .next { s with d := d } ∧
      ((s.d.port p).maxFrm + 2048 < f.length → s.d.Drops p 0x11 d) ∧
      ((s.d.port p).maxFrm < f.length → f.length ≤ (s.d.port p).maxFrm + 2048 → s.d.Drops p 0x10 d) ∧
      (f.length ≤ (s.d.port p).maxFrm → f.length ≤ 63 → s.d.Drops p 0x0F d) ∧
      (f.length ≤ (s.d.port p).maxFrm → 64 ≤ f.length → a = false → s.d.Drops p 0x12 d) ∧
      (f.length ≤ (s.d.port p).maxFrm → 64 ≤ f.length → a = true → isFragment f = true → s.d.Drops p 0x15 d)) ∧
  (∀ (s : State) (p : Port) (f : Bytes) (b : Bool) (i : Nat), (s.d.port p).link.up = true → f.length ≤ (s.d.port p).maxFrm →
    64 ≤ f.length → etherType f ≠ 0x8808 → isFragment f = false → s.d.steer p f = some i →
    ∃ d, exec (.frameReceive p f true b) s = .next { s with d := d } ∧
      lookupD (d.port p).hits i 0 = wrap32 (lookupD (s.d.port p).hits i 0 + 1) ∧
      (∀ j, j ≠ i → lookupD (d.port p).hits j 0 = lookupD (s.d.port p).hits j 0) ∧
      ((s.d.filter p i).cls ≠ 0 → (s.d.filter p i).cls ≤ 0x1F → (s.d.port p).fill + f.length ≤ 4 * 2 ^ 20 →
        (d.port p).rxq = (s.d.port p).rxq ++ [((s.d.filter p i).cls, f, b)]) ∧
      ((s.d.filter p i).cls = 0 ∨ 0x1F < (s.d.filter p i).cls → (d.port p).rxq = (s.d.port p).rxq) ∧
      ((s.d.filter p i).cls ≠ 0 → (s.d.filter p i).cls ≤ 0x2F → 4 * 2 ^ 20 < (s.d.port p).fill + f.length →
        (d.port p).flow = (s.d.port p).flow ∧ (d.port p).rxq = (s.d.port p).rxq ∧ (d.port p).neighs = (s.d.port p).neighs ∧
        d.events (portSrc p + 5) = wrap32 (s.d.events (portSrc p + 5) + 1)) ∧
      s.d.SameBut (portParts p) d) ∧
  (∀ (s : State) (p : Path) (q : Port) (d : Drive) (x : Filter), s.reaches p (netBase q + 0x60) = some d →
    Filter.ofWords (fun k => d.staged p (netBase q + 0x4C + 4 * k)) = x →
    (x.dmode ≠ 3 → ∃ d', exec (.filterLoad p q) s = .next { s with d := d' } ∧ d'.filter q (d.sel p (netBase q + 0x48)) = x ∧
      (∀ j, j ≠ d.sel p (netBase q + 0x48) → d'.filter q j = d.filter q j) ∧ d.SameBut [portPart q] d') ∧
    (x.dmode = 3 → ∃ d', exec (.filterLoad p q) s = .next { s with d := d' } ∧
      d'.port q = { d.port q with link := { (d.port q).link with cfgErr := true } } ∧ d.SameBut [portPart q] d')) ∧
  (∀ (s : State) (p : Path) (q : Port) (d : Drive), s.reaches p (netBase q + 0x60) = some d →
    ∃ d', exec (.filterFetch p q) s = .next { s with d := d' } ∧
      ((List.range 5).map fun k => d'.staged p (netBase q + 0x4C + 4 * k)) = (d.filter q (d.sel p (netBase q + 0x48))).words ∧
      d.SameBut [.sys] d') ∧
  (∀ (s : State) (p : Path) (q : Port) (v : Word) (d : Drive), s.reaches p (netBase q + 0x10) = some d →
    ((∀ c ∈ d.xpt.conns, c.state ≠ .free ∨ c.pending = true → portOf c.path.portB = q → mtuBytes c.path.pmtu + 102 ≤ min 9216 (max 1518 (v.toNat % 2 ^ 14))) →
      ∃ d', exec (.maxfrmWrite p q v) s = .next { s with d := d' } ∧
        d'.port q = { d.port q with maxFrm := min 9216 (max 1518 (v.toNat % 2 ^ 14)) } ∧ d.SameBut [portPart q] d') ∧
    ((∃ c ∈ d.xpt.conns, (c.state ≠ .free ∨ c.pending = true) ∧ portOf c.path.portB = q ∧ min 9216 (max 1518 (v.toNat % 2 ^ 14)) < mtuBytes c.path.pmtu + 102) →
      ∃ d', exec (.maxfrmWrite p q v) s = .next { s with d := d' } ∧
        d'.port q = { d.port q with link := { (d.port q).link with cfgErr := true } } ∧ d.SameBut [portPart q] d')) ∧
  (∀ (s : State) (p : Path) (q : Port) (v : Word) (d : Drive), s.reaches p (netBase q + 0x1C) = some d →
    ∃ d', exec (.addressWrite p q 0x01C v) s = .next { s with d := d' } ∧ (d'.port q).ip4 = v.toNat ∧ (d'.port q).maxFrm = (d.port q).maxFrm ∧
      d.SameBut (portParts q) d')

/-- Register accesses on a path (R10-R24, R650-R653). `d` is the drive once the writes posted on the path before are in effect.
The model's choices in it, which no rule of the spec states: when a posted write takes effect (log 79), which registers latch (log 80),
where none is reachable (log 81), which access gets no answer (log 129). -/
def Obligations.RegisterAccess : Prop :=
  (∀ (s : State) (p : Path) (off : Nat) (v : Word), s.d.reachable = false ∨ regOffset off = false →
    exec (.registerWrite p off v) s = .next s ∧ exec (.registerAccessTimeout p off) s = .next s) ∧
  (∀ (s : State) (p : Path) (off : Nat) (v : Word) (d : Drive), s.d.reachable = true → regOffset off = true → s.d.drain p = d →
    d.islState (regIsland off) ≠ 0 →
    ∃ d', exec (.registerWrite p off v) s = .next { s with d := d' } ∧
      d'.sys.path p = { d.sys.path p with islDown := true, isl := regIsland off } ∧ (∀ q, q ≠ p → d'.sys.path q = d.sys.path q) ∧
      d'.events 0x006 = wrap32 (d.events 0x006 + 1) ∧ d.SameBut (.sys :: eventParts) d') ∧
  (∀ (s : State) (p : Path) (off : Nat) (post : Option Posted), s.d.reachable = true → regOffset off = true →
    s.d.sys.posted.find? (fun w => w.path == p && w.off == off) = post →
    ∃ d', exec (.registerAccessTimeout p off) s = .next { s with d := d' } ∧
      d'.events 0x006 = wrap32 (s.d.events 0x006 + 1) ∧ (∀ q, q ≠ p → d'.sys.path q = s.d.sys.path q) ∧
      s.d.SameBut (.sys :: eventParts) d' ∧
      (∀ w, post = some w → d'.sys.posted = s.d.sys.posted.erase w ∧
        d'.sys.path p = { s.d.sys.path p with islDown := true, isl := regIsland off }) ∧
      (post = none → d'.sys.posted = s.d.sys.posted ∧
        d'.sys.path p = { s.d.sys.path p with islDown := true, isl := regIsland off, mute := (s.d.sys.path p).mute ++ [off] })) ∧
  (∀ (s : State) (p : Path) (off : Nat) (v : Word) (d : Drive), s.d.reachable = true → regOffset off = true → s.d.drain p = d →
    d.islState (regIsland off) = 0 → off ∈ (d.sys.path p).mute →
    ∃ d', exec (.registerWrite p off v) s = .next { s with d := d' } ∧
      d'.sys.path p = { d.sys.path p with mute := (d.sys.path p).mute.erase off } ∧ (∀ q, q ≠ p → d'.sys.path q = d.sys.path q) ∧
      d.SameBut [.sys] d') ∧
  (∀ (s : State) (p : Path) (off m : Nat) (v : Word) (d : Drive), s.reaches p off = some d → selectMask off = some m →
    (selectClamp off (v.toNat &&& m) = none →
      ∃ d', exec (.selectWrite p off v) s = .next { s with d := d' } ∧ d'.sel p off = (v.toNat &&& m) ∧
        (∀ o, o ≠ off → d'.sel p o = d.sel p o) ∧ (d'.sys.path p).selErr = (d.sys.path p).selErr ∧
        (∀ q, q ≠ p → d'.sys.path q = d.sys.path q) ∧ d.SameBut [.sys] d') ∧
    (∀ c, selectClamp off (v.toNat &&& m) = some c →
      ∃ d', exec (.selectWrite p off v) s = .next { s with d := d' } ∧ d'.sel p off = c ∧ (d'.sys.path p).selErr = true ∧
        (d'.sys.path p).selReg = off ∧ (∀ q, q ≠ p → d'.sys.path q = d.sys.path q) ∧
        d'.events 0x007 = wrap32 (d.events 0x007 + 1) ∧ d.SameBut (.sys :: eventParts) d')) ∧
  (∀ (s : State) (p : Path) (off : Nat) (v : Word), (selectMask off).isNone = true → exec (.selectWrite p off v) s = .next s) ∧
  (∀ (s : State) (p : Path) (off : Nat) (v : Word) (d : Drive), s.reaches p off = some d → isStaging off = true →
    ∃ d', exec (.registerWrite p off v) s = .next { s with d := d' } ∧ d'.staged p off = (v.toNat &&& stagingMask off) ∧
      (∀ o, o ≠ off → d'.staged p o = d.staged p o) ∧ (∀ q, q ≠ p → d'.sys.path q = d.sys.path q) ∧ d.SameBut [.sys] d') ∧
  (∀ (s : State) (p : Path) (v : Word) (d : Drive),
    (s.reaches p 0x2010 = some d →
      exec (.registerWrite p 0x2010 v) s = .next { s with d := { d with pwr := { d.pwr with autoIdle := v.toNat % 2 ^ 16 } } }) ∧
    (s.reaches p 0xF004 = some d →
      exec (.registerWrite p 0xF004 v) s = .next { s with d := { d with csc := { d.csc with high := v.getLsbD 0 } } }) ∧
    (s.reaches p 0x5104 = some d →
      exec (.registerWrite p 0x5104 v) s =
        .next { s with d := { d with xpt := { d.xpt with helloTo := max 100 (min 60000 (v.toNat % 2 ^ 16)) } } }) ∧
    (s.reaches p 0x913C = some d →
      exec (.registerWrite p 0x913C v) s =
        .next { s with d := { d with med := { d.med with scrubIv := max 1 (min 90 (v.toNat % 2 ^ 7)) } } }) ∧
    (s.reaches p 0xA100 = some d →
      exec (.registerWrite p 0xA100 v) s = .next { s with d := { d with dmc := { d.dmc with page := max 1 (v.toNat % 2 ^ 10) } } })) ∧
  (∀ (s : State) (p : Path) (off v : Nat) (d : Drive), s.reaches p off = some d → State.pair p off { s with d := d } = some v →
    ∃ d', exec (.halfLatchRead p off) s = .next { s with d := d' } ∧
      lookupD (d'.sys.path p).latch (off + 4) 0 = v / 2 ^ 32 % 2 ^ 32 ∧ (∀ o, d'.sel p o = d.sel p o) ∧
      (∀ q, q ≠ p → d'.sys.path q = d.sys.path q) ∧ d.SameBut [.sys] d')

/-- R111, R298-R300, R313, R551-R553.
The model's choices in it, which no rule of the spec states: the slots of a change of tiles (log 83), the row a pattern takes (log 120), items of the store are open bytes (log 99). -/
def Obligations.IndexAndStoreRegisters : Prop :=
  (∀ (s : State) (p : Path) (d : Drive), s.reaches p 0x6108 = some d →
    exec (.hwmclr p) s = .next { s with d := { d with hq := { d.hq with hwm := d.kvx.ctxs.length } } }) ∧
  (∀ (s : State) (p : Path) (v : Word) (d : Drive) (t : Nat), s.reaches p 0x8008 = some d → d.sel p 0x8000 = t →
    t < d.idx.tiles.length → (d.idx.tile t).fenced = false → d.idx.patternQuad (t / 4) = false →
    ∃ d' n, exec (.pfcfgWrite p v) s = .next { s with d := d' } ∧ n = (d.idx.cam.filter fun r => r.tile == t).length ∧
      (∀ (j : Nat) (x : Tile),
        x = (if j = t then { d.idx.tile j with pfEn := v.getLsbD 31, pos := min 138 (v.toNat % 2 ^ 8) } else d.idx.tile j) →
        d'.idx.tile j = if d.idx.indexTile j then { x with upd := x.upd + n, ahead := x.ahead + n } else x) ∧
      d'.idx.cam = d.idx.cam.filter (fun r => r.tile != t) ∧
      d'.idx.pquad = d.idx.pquad ∧ d'.idx.slots = d.idx.slots ∧ d.SameBut [.idx] d') ∧
  (∀ (s : State) (p : Path) (v : Word) (d : Drive), s.reaches p 0x8100 = some d → v.toNat % 16 = 0 → d.idx.workQuad.isSome = true →
    exec (.tilecfgWrite p v) s = .next { s with d := { d with idx := { d.idx with cfgErr := true } } }) ∧
  (∀ (s : State) (p : Path) (v : Word) (d : Drive) (q : Nat), s.reaches p 0x8100 = some d → q < 4 → v.getLsbD q = true →
    d.idx.quadWhole q = true →
    d.kvx.watches = [] ∨ (∀ j < 4, v.getLsbD j = true → d.idx.patternQuad j = true ∨ d.idx.quadWhole j = false) →
    ∃ d', exec (.tilecfgWrite p v) s = .next { s with d := d' } ∧ d'.idx.pquad = v.toNat % 16 ∧ d'.idx.pnext = none ∧
      d'.idx.cam = d.idx.cam.filter (fun r => !(v.getLsbD (r.tile / 4) && decide (r.tile / 4 < 4) && !d.idx.patternQuad (r.tile / 4))) ∧
      (∀ x ∈ d'.idx.slots, d'.idx.quadOk x.quad = true) ∧ d'.idx.slots.length = d.idx.slots.length ∧ d'.idx.cfgErr = d.idx.cfgErr ∧
      d.SameBut [.idx] d') ∧
  (∀ (s : State) (p : Path) (v : Word) (d : Drive) (q : Nat), s.reaches p 0x8100 = some d → q < 4 → v.getLsbD q = true →
    d.idx.patternQuad q = false → d.idx.quadWhole q = true → d.kvx.watches ≠ [] → d.idx.workQuad.isSome = true →
    ∃ d', exec (.tilecfgWrite p v) s = .next { s with d := d' } ∧ d'.idx.pquad = d.idx.pquad ∧ d'.idx.pnext = some (v.toNat % 16) ∧
      (∀ j < 4, (d'.idx.tile (4 * q + j)).pend = true ∧ (d'.idx.tile (4 * q + j)).todo = d.kvx.watches.length) ∧
      (d'.idx.inQuad q).map (fun r => (r.search, r.id, r.ks, r.pat)) = d.kvx.watches.map (fun w => (false, w.id, w.ks, w.pat)) ∧
      d'.idx.cam = d.idx.cam.filter (fun r => !(v.getLsbD (r.tile / 4) && decide (r.tile / 4 < 4) && !d.idx.patternQuad (r.tile / 4))) ∧
      d'.idx.slots = d.idx.slots ∧ d.SameBut [.idx] d') ∧
  (∀ s : State, s.Wf → s.d.reachable = true → (∀ t, s.d.upd.cfgAt = some t → t + 14400000000000 ≤ s.d.clk.life) →
    ∃ t, exec .configurationStoreWrite s = .next t ∧ t.pending = s.pending ∧ t.Wf ∧ t.nv.fuses = s.nv.fuses ∧
      t.d.upd.cfgAt = some s.d.clk.life ∧ (∀ a, a < bankBase 0 ∨ bankBase 4 ≤ a → flashByte a t.nv.flash = flashByte a s.nv.flash) ∧
      s.d.SameBut [.upd, .free] t.d) ∧
  (∀ (s : State) (t : Nat), s.d.upd.cfgAt = some t → s.d.clk.life < t + 14400000000000 → exec .configurationStoreWrite s = .next s)

/-- R314-R316, R321, R322, R325. Status 0x9001 is INTERNAL; the codes of a cascade fault are 0x0C000001 and up. R317-R321, for a module that does not lead, but for the leader's pass 2. 0x1001 is NOT_FOUND, result flag 4 SUPPRESSED.
The model's choices in it, which no rule of the spec states: the ring is read as in log entry 76; the nets read as in log entry 72; whether another module holds CASC_SYNC is an open value (log 124); of a void window with a mismatch the void decides (log 146). -/
def Obligations.CascadeRing : Prop :=
  (∀ (s : State) (p : Path) (v : Word) (d : Drive), s.reaches p 0xF000 = some d → v.getLsbD 1 = false → v.getLsbD 0 = d.csc.en →
    (v.getLsbD 2 = true → d.csc.clkMst = false →
      exec (.clkmstWrite p v) s = .next { s with d := { d with csc := { d.csc with clkMst := true, sampling := !d.csc.drives } } }) ∧
    (v.getLsbD 2 = false → d.csc.clkMst = true → d.csc.drives = true →
      exec (.clkmstWrite p v) s = .next { s with d := { d with csc := { d.csc with
        clkMst := false, sampling := false, drives := false, clkOk := false, inRing := false, run := none, mo := none } } })) ∧
  (∀ s : State, s.d.csc.sampling = true →
    exec (.clockSampleEnd false) s =
      .next { s with d := { s.d with csc := { s.d.csc with sampling := false, clkOk := true, drives := true } } } ∧
    ∃ d, exec (.clockSampleEnd true) s = .next { s with d := d } ∧
      d.csc = { s.d.csc with sampling := false, clkOk := true, dupMst := true } ∧ d.events 0x1F9 = wrap32 (s.d.events 0x1F9 + 1) ∧
      s.d.SameBut (.csc :: eventParts) d) ∧
  (∀ (s : State) (p : Path) (v : Word) (d : Drive), s.reaches p 0xF000 = some d → v.getLsbD 1 = false → v.getLsbD 2 = d.csc.clkMst →
    (v.getLsbD 0 = true → d.csc.en = false →
      exec (.cascadeEnable p v) s = .next { s with d := { d with csc := { d.csc with en := true, due := d.csc.drives } } }) ∧
    (∀ (q o : Nat) (c : Ctx), v.getLsbD 0 = false → d.csc.en = true → d.csc.find = [(q, o)] → d.ctx? q o = some c →
      d.soleCtx q o = true → c.settled = false → c.op ≠ 0x10 →
      ∃ d' c', exec (.cascadeEnable p v) s = .next { s with d := d' } ∧ d'.csc.en = false ∧ d'.csc.inRing = false ∧ d'.csc.run = none ∧
        d'.csc.find = [] ∧ d'.ctx? q o = some c' ∧ c'.settled = true ∧ c'.res.status = 0x9001 ∧ c'.res.b = leBytes 4 0x0C000005)) ∧
  (∀ s : State, s.d.csc.en = true → s.d.csc.inRing = false → s.d.csc.run = none → s.d.csc.dupSlot = false →
    s.d.csc.clkMst = false ∨ s.d.csc.drives = true → s.d.pwr.cur ≠ 0 → s.d.pwr.cur ≠ 8 →
    s.d.csc.drives = false ∨ s.d.csc.find = [] ∨ Config.syncHeld s.d.clk.life = true →
    exec .ringJoin s = .next { s with d := { s.d with csc := if s.d.csc.drives
      then { s.d.csc with inRing := true, clkOk := true, run := some { find := none, sent := none }, due := false, winAt := s.d.clk.life, mo := some (.collect {
          roll := true, seq := 0, mismatch := false, slots := 2 ^ s.d.mgmt.slotId.toNat }) }
      else { s.d.csc with inRing := true, clkOk := true } } }) ∧
  (∀ s : State, s.d.csc.en = false → s.d.pwr.cur ≠ 0 → s.d.pwr.cur ≠ 8 →
    exec .ringJoin s = .next { s with d := { s.d with csc := { s.d.csc with clkOk := true } } }) ∧
  (∀ s : State, s.d.csc.drives = true → s.d.csc.winAt + 100000000 ≤ s.d.clk.life →
    (s.d.csc.inRing = true → s.d.csc.run = none → s.d.csc.find = [] ∨ Config.syncHeld s.d.clk.life = true →
      exec .rollCallTimer s = .next { s with d := { s.d with csc := { s.d.csc with
        run := some { find := none, sent := none }, due := false, winAt := s.d.clk.life, mo := some (.collect {
          roll := true, seq := 0, mismatch := false, slots := 2 ^ s.d.mgmt.slotId.toNat }) } } }) ∧
    (s.d.csc.run.isSome = true ∨ (s.d.csc.find ≠ [] ∧ Config.syncHeld s.d.clk.life = false) →
      exec .rollCallTimer s = .next { s with d := { s.d with csc := { s.d.csc with due := true } } })) ∧
  (∀ s : State, s.d.csc.drives = false ∨ s.d.clk.life < s.d.csc.winAt + 100000000 → exec .rollCallTimer s = .next s) ∧
  (∀ (s : State) (p : Path) (d : Drive), s.reaches p 0xF000 = some d → d.csc.drives = true → d.csc.inRing = true → d.csc.run = none →
    d.csc.find = [] ∨ Config.syncHeld d.clk.life = true →
    exec (.rollnow p) s = .next { s with d := { d with csc := { d.csc with
        run := some { find := none, sent := none }, due := false, winAt := d.clk.life, mo := some (.collect {
          roll := true, seq := 0, mismatch := false, slots := 2 ^ d.mgmt.slotId.toNat }) } } }) ∧
  (∀ (s : State) (seq slots : Byte) (mm dup : Bool) (l : Option Nat) (n : Nat), s.d.csc.drives = false → s.d.csc.inRing = true →
    s.d.mgmt.slotId.toNat = n → slots.getLsbD n = dup →
    ∃ d c, exec (.pass1Return true seq mm slots l) s = .next { s with d := d } ∧
      c = { s.d.csc with winAt := s.d.clk.life, mo := some (.collect {
              roll := true, seq := seq.toNat, mismatch := mm || dup, slots := slots.toNat ||| 2 ^ n }) } ∧
      (dup = true → d.csc = { c with dupSlot := true, inRing := false, run := none } ∧ d.events 0x1FA = wrap32 (s.d.events 0x1FA + 1) ∧
        s.d.SameBut (.csc :: eventParts) d) ∧
      (dup = false → d = { s.d with csc := c })) ∧
  (∀ (s : State) (seq slots : Byte) (mm : Bool) (l : Option Nat) (x : Nat × Nat), s.d.csc.drives = false → s.d.csc.inRing = true →
    s.d.csc.run = some { find := some x, sent := none } →
    exec (.pass1Return false seq mm slots l) s = .next { s with d := { s.d with csc := { s.d.csc with
      winAt := s.d.clk.life, mo := some (.collect {
          roll := false, seq := seq.toNat, mismatch := mm || decide (s.d.findSeq x % 256 ≠ seq.toNat)
          slots := slots.toNat ||| s.d.ownMatch x }) } } }) ∧
  (∀ (s : State) (seq slots : Byte) (mm valid : Bool) (w : BitVec 3), s.d.csc.drives = false → s.d.csc.inRing = true →
    s.d.csc.run = none → s.d.csc.due = false →
    exec (.pass2Receive true false seq mm slots w valid) s = .next { s with d := { s.d with csc := { s.d.csc with
      roll := slots.toNat, mo := some (.result {
          roll := true, void := false, seq := seq.toNat, mismatch := mm, slots := slots.toNat, win := w.toNat, valid := valid }) } } }) ∧
  (∀ s : State, s.d.csc.drives = true → exec .cascClkLoss s = .next s) ∧
  (∀ s : State, s.d.csc.drives = false → s.d.csc.find = [] →
    exec .cascClkLoss s = .next { s with d := { s.d with csc := { s.d.csc with
      clkOk := false, inRing := false, run := none, mo := none } } }) ∧
  (∀ (s : State) (q o : Nat) (c : Ctx), s.d.csc.drives = false → s.d.csc.find = [(q, o)] → s.d.ctx? q o = some c →
    s.d.soleCtx q o = true → c.settled = false → c.op ≠ 0x10 →
    ∃ d c', exec .cascClkLoss s = .next { s with d := d } ∧ d.csc.clkOk = false ∧ d.csc.find = [] ∧ d.ctx? q o = some c' ∧
      c'.settled = true ∧ c'.res.status = 0x9001 ∧ c'.res.b = leBytes 4 0x0C000001) ∧
  (∀ (s : State) (q o : Nat) (l : List (Nat × Nat)) (c : Ctx), s.d.csc.find = (q, o) :: l → s.d.csc.inRing = true → s.d.csc.run = none →
    s.d.ctx? q o = some c →
    exec .arbitrationStart s = .next { s with d := { s.d with csc := { s.d.csc with
      run := some { find := some (q, o), sent := none }, arb := s.d.csc.arb + 1, lastSeq := c.e.c 0x70 4
      headAt := s.d.clk.life, winAt := s.d.clk.life
      mo := if s.d.csc.drives
        then some (.collect { roll := false, seq := c.e.c 0x70 4 % 256, mismatch := false, slots := s.d.ownMatch (q, o) })
        else s.d.csc.mo } } }) ∧
  (∀ (s : State), s.d.csc.find = [] ∨ s.d.csc.inRing = false → exec .arbitrationStart s = .next s) ∧
  (∀ (s : State) (seq slots : Byte) (mm : Bool) (x : Nat × Nat), s.d.csc.drives = true →
    s.d.csc.run = some { find := some x, sent := none } →
    ∃ f : Pass2, exec (.pass1Return false seq mm slots (some s.d.csc.lat)) s = .next { s with d := { s.d with csc := { s.d.csc with
        run := some { find := some x, sent := some f }, mo := some (.result f) } } } ∧
      f.roll = false ∧ f.void = false ∧ f.seq = seq.toNat ∧ f.mismatch = mm ∧ f.slots = slots.toNat ||| s.d.ownMatch x ∧
      (f.valid = true ↔ f.slots ≠ 0 ∧ mm = false) ∧
      (f.slots % 256 ≠ 0 → f.slots.testBit f.win = true ∧ ∀ j, j < 8 → f.slots.testBit j = true →
        if s.d.csc.high then j ≤ f.win else f.win ≤ j)) ∧
  (∀ (s : State) (q o : Nat) (l : List (Nat × Nat)) (c : Ctx) (seq slots : Byte) (win : BitVec 3) (f : Pass2) (off : Csc),
    s.d.csc.drives = false → s.d.csc.inRing = true → s.d.csc.due = false → s.d.csc.find = (q, o) :: l → (q, o) ∉ l →
    s.d.csc.run = some { find := some (q, o), sent := none } → s.d.ctx? q o = some c → c.op ≠ 0x10 → s.d.soleCtx q o = true →
    f = { roll := false, void := false, seq := seq.toNat, mismatch := false, slots := slots.toNat, win := win.toNat, valid := true } →
    off = { s.d.csc with run := none, find := l, headVoids := 0, headAt := s.d.clk.life, mo := some (.result f) } →
    (c.res.status ≠ 0x1001 → win.toNat = s.d.mgmt.slotId.toNat → c.chunks = [] → c.data ≠ [] → s.d.islState 7 = 0 →
      ∃ d, exec (.pass2Receive false false seq false slots win true) s = .next { s with d := d } ∧
        d.csc = { off with won := wrap32 (s.d.csc.won + 1) } ∧ s.d.SameBut [.csc, .kvx, .xpt, .dmc] d ∧
        ((s.d.conn? c.conn).isSome = true → d.Sends c c.data)) ∧
    (c.res.status ≠ 0x1001 → win.toNat = s.d.mgmt.slotId.toNat → c.chunks = [] → c.data ≠ [] → s.d.islState 7 ≠ 0 →
      exec (.pass2Receive false false seq false slots win true) s = .next { s with d := { s.d with
        csc := { off with won := wrap32 (s.d.csc.won + 1) }
        upd := { s.d.upd with clamped := s.d.upd.clamped ++ [(7, (q, o))] } } }) ∧
    (c.res.status ≠ 0x1001 → win.toNat ≠ s.d.mgmt.slotId.toNat →
      ∃ d c', exec (.pass2Receive false false seq false slots win true) s = .next { s with d := d } ∧
        d.csc = { off with supp := wrap32 (s.d.csc.supp + 1) } ∧
        d.ctx? q o = some c' ∧ c'.settled = true ∧ c'.res.status = 0x1001 ∧ c'.res.flags = 4) ∧
    (c.res.status = 0x1001 →
      ∃ d c', exec (.pass2Receive false false seq false slots win true) s = .next { s with d := d } ∧ d.csc = off ∧
        d.ctx? q o = some c' ∧ c'.settled = true ∧ c'.res.status = 0x1001 ∧ c'.res.flags = 0) ∧
    (c.settled = false → ∃ d c', exec (.pass2Receive false false seq true slots win false) s = .next { s with d := d } ∧
      d.csc = { off with seqMm := true, mo := some (.result { f with mismatch := true, valid := false }) } ∧
      d.ctx? q o = some c' ∧ c'.settled = true ∧ c'.res.status = 0x9001 ∧ c'.res.b = leBytes 4 0x0C000003 ∧
      d.events 0x1FC = wrap32 (s.d.events 0x1FC + 1)) ∧
    (s.d.csc.headVoids < 2 → ∃ d, exec (.pass2Receive false true seq false slots win false) s = .next { s with d := d } ∧
      d.csc = { s.d.csc with
        run := none, voided := true, voids := wrap32 (s.d.csc.voids + 1), headVoids := s.d.csc.headVoids + 1
        mo := some (.result { f with void := true, valid := false }) } ∧
      d.events 0x1FB = wrap32 (s.d.events 0x1FB + 1) ∧ s.d.SameBut (.csc :: eventParts) d) ∧
    (c.settled = false → 2 ≤ s.d.csc.headVoids →
      ∃ d c', exec (.pass2Receive false true seq false slots win false) s = .next { s with d := d } ∧
        d.ctx? q o = some c' ∧ c'.settled = true ∧ c'.res.status = 0x9001 ∧ c'.res.b = leBytes 4 0x0C000004)) ∧
  (∀ (s : State) (q o : Nat) (l : List (Nat × Nat)) (c : Ctx), s.d.csc.find = (q, o) :: l → s.d.csc.run = none → s.d.ctx? q o = some c →
    s.d.csc.headAt + 1000000 * s.d.csc.syncMs ≤ s.d.clk.life → s.d.soleCtx q o = true → c.settled = false → c.op ≠ 0x10 →
    ∃ d c', exec .cscSyncto s = .next { s with d := d } ∧ d.csc.syncTo = true ∧ (q, o) ∉ d.csc.find ∧ d.ctx? q o = some c' ∧
      c'.settled = true ∧ c'.res.status = 0x9001 ∧ c'.res.b = leBytes 4 0x0C000002 ∧ d.events 0x1FD = wrap32 (s.d.events 0x1FD + 1)) ∧
  (∀ s : State, s.d.csc.find = [] ∨ s.d.clk.life < s.d.csc.headAt + 1000000 * s.d.csc.syncMs → exec .cscSyncto s = .next s)

/-- R473-R483. Statuses: 0x8003 AUTH_FAILED, 0x9001 INTERNAL.
The model's choices in it, which no rule of the spec states: when contexts ask and the unit times (log 77), the count of restored keys
(log 78), which values count as keyed (log 145). -/
def Obligations.CryptoCores : Prop :=
  (∀ (s : State) (dig : Bool) (cls id : Nat) (w : CryCtx), w = { id := id, cls := cls, digest := dig, place := .waiting } →
    (∀ x ∈ s.d.cry.ctxs, s.d.ctxLive x = true ∧ x.core.isSome = true ∧ x.due = none ∧ x.since ≤ s.d.clk.life) → s.d.cry.ctxs.Nodup →
    (∀ x ∈ s.d.cry.ctxs, ¬ (x.id = id ∧ x.cls = cls ∧ x.digest = dig)) →
    (s.d.ctxLive w = false → exec (.cipherPreempt dig cls id) s = .next s) ∧
    (∀ n, s.d.ctxLive w = true → s.d.cry.freeCore dig = some n →
      exec (.cipherPreempt dig cls id) s = .next { s with d := { s.d with cry := { s.d.cry with
        ctxs := s.d.cry.ctxs ++ [{ w with place := .running n, since := s.d.clk.life }] } } }) ∧
    (∀ v n, s.d.ctxLive w = true → s.d.cry.freeCore dig = none → s.d.victimCtx dig cls = some v → v.core = some n → s.d.cry.fenced n = false →
      ((s.d.clk.life - v.since) % s.d.unitNs v = 0 →
        exec (.cipherPreempt dig cls id) s = .next { s with d := { s.d with cry := { s.d.cry with
          ctxs := (s.d.cry.ctxs.filter (· != v)) ++ [{ v with place := .saved n, units := v.units + (s.d.clk.life - v.since) / s.d.unitNs v },
            { w with place := .running n, since := s.d.clk.life }]
          preempts := wrap32 (s.d.cry.preempts + 1) } } }) ∧
      ((s.d.clk.life - v.since) % s.d.unitNs v ≠ 0 →
        exec (.cipherPreempt dig cls id) s = .next { s with d := { s.d with cry := { s.d.cry with
          ctxs := (s.d.cry.ctxs.map fun x => if x = v then
            { v with due := some (v.since + ((s.d.clk.life - v.since) / s.d.unitNs v + 1) * s.d.unitNs v) } else x) ++ [w] } } })) ∧
    (s.d.ctxLive w = true → s.d.cry.freeCore dig = none →
      (∀ x ∈ s.d.cry.ctxs, x.digest = dig → x.cls < cls ∨ s.d.clk.life - x.since < s.d.unitNs x) →
      exec (.cipherPreempt dig cls id) s = .next { s with d := { s.d with cry := { s.d.cry with ctxs := s.d.cry.ctxs ++ [w] } } })) ∧
  (∀ (s : State) (v w : CryCtx) (n t : Nat), v ∈ s.d.cry.ctxs → w ∈ s.d.cry.ctxs → s.d.cry.ctxs.Nodup →
    (∀ x ∈ s.d.cry.ctxs, s.d.ctxLive x = true ∧ (x ≠ w → x.core.isSome = true) ∧ (x ≠ v → x.due = none)) →
    w.place = .waiting → w.digest = v.digest → w.cls ≤ v.cls → v.core = some n → s.d.cry.fenced n = false → v.due = some t →
    t ≤ s.d.clk.life → s.d.cry.freeCore v.digest = none →
    exec (.cipherPreempt w.digest w.cls w.id) s = .next { s with d := { s.d with cry := { s.d.cry with
      ctxs := (s.d.cry.ctxs.filter fun x => x != v && x != w) ++ [{ v with place := .saved n, units := v.units + s.d.ran4k v, due := none },
        { w with place := .running n, since := s.d.clk.life, due := none }]
      preempts := wrap32 (s.d.cry.preempts + 1) } } }) ∧
  (∀ (s : State) (a : BitVec 16) (g : Byte) (fin : Bool), s.d.cry.katRun = false →
    (∃ t, s.d.cry.katAt = some t ∧ s.d.clk.life < t + 86400000000000) → exec (.katRound a g fin) s = .next s) ∧
  (∀ (s : State) (fin : Bool), s.d.katDue = true → exec (.katRound 0 0 fin) s = .next { s with d := { s.d with cry := { s.d.cry with
    katRun := !fin, katAt := if fin then some s.d.clk.life else s.d.cry.katAt } } }) ∧
  (∀ (s : State) (n : Nat) (a : BitVec 16) (g : Byte) (fin : Bool), s.d.katDue = true → s.d.cry.fenced n = false →
    (n < 16 ∧ a = BitVec.ofNat 16 (2 ^ n) ∧ g = 0) ∨ (16 ≤ n ∧ n < 24 ∧ a = 0 ∧ g = BitVec.ofNat 8 (2 ^ (n - 16))) →
    ∃ d, exec (.katRound a g fin) s = .next { s with d := d } ∧ d.cry.fenced n = true ∧
      (∀ j < 24, j ≠ n → d.cry.fenced j = s.d.cry.fenced j) ∧ d.cry.alarm = (s.d.cry.alarm ||| 16) ∧ d.cry.katRun = !fin ∧
      (∀ x ∈ d.cry.ctxs, x.place ≠ .running n ∧ x.place ≠ .saved n) ∧ d.events 0x1C3 = wrap32 (s.d.events 0x1C3 + 1) ∧
      s.d.SameBut ([.cry, .upd, .free] ++ settleParts) d) ∧
  (∀ (s : State) (p : Path) (d : Drive), s.reaches p 0xB10C = some d →
    exec (.katNow p) s = .next { s with d := { d with cry := { d.cry with katRun := true } } }) ∧
  (∀ (s : State) (n : Fin 24), ∃ d, exec (.cryBusError n) s = .next { s with d := d } ∧ d.cry.alarm = (s.d.cry.alarm ||| 8) ∧
    (∀ x ∈ d.cry.ctxs, x.place ≠ .running n ∧ x.place ≠ .saved n) ∧ d.events 0x1C2 = wrap32 (s.d.events 0x1C2 + 1) ∧
    (2 ≤ (s.d.cry.busErrs.filter fun x => decide (s.d.clk.life < x.2 + 3600000000000) && x.1 == n.val).length →
      d.cry.fenced n = true) ∧
    ((s.d.cry.busErrs.filter fun x => decide (s.d.clk.life < x.2 + 3600000000000) && x.1 == n.val).length < 2 →
      d.cry.aesFence = s.d.cry.aesFence ∧ d.cry.digFence = s.d.cry.digFence) ∧
    s.d.SameBut ([.cry, .upd, .free] ++ settleParts) d) ∧
  (∀ (s : State) (n : Fin 24) (x : CryCtx) (c : Ctx), s.d.cry.ctxs = [x] → x.place = .running n → x.cls < 2 →
    (s.d.kvx.ctxs.find? fun c => c.ord == x.id && !c.settled) = some c → s.d.soleCtx c.sq c.ord = true → c.alive = true →
    ∃ d c' r, exec (.cryBusError n) s = .next { s with d := d } ∧ d.ctx? c.sq c.ord = some c' ∧
      (c.turned = true ∨ c.ran = true → c'.settled = true ∧ c'.res.status = r.status ∧ c'.res.stage = r.stage) ∧
      (c.turned = false → c.ran = false → c.fail = none → c'.settled = false ∧ c'.fail = some r) ∧
      (x.digest = true → c.op = 0x4C ∨ c.op = 0x08 ∨ (s.d.tokenOp c = true ∧ (c.wantsDigest = false ∨ c.reads = [])) →
        r.status = 0x8003 ∧ r.stage = 9) ∧
      (x.digest = true → c.op ≠ 0x4C → c.op ≠ 0x08 → s.d.tokenOp c = false ∨ (c.wantsDigest = true ∧ c.reads ≠ []) →
        r.status = 0x9001 ∧ r.stage = 0xC) ∧
      (x.digest = false → c.op = 0x4C ∨ (c.storesBytes = true ∧ s.d.cry.vauth = true) ∨ c.tagged ≠ [] → r.status = 0x8003 ∧ r.stage = 9) ∧
      (x.digest = false → c.op ≠ 0x4C → c.storesBytes = false ∨ s.d.cry.vauth = false → c.tagged = [] →
        r.status = 0x9001 ∧ r.stage = 0xC)) ∧
  (∀ s : State,
    (∃ d, exec .cryVoltageAlarm s = .next { s with d := d } ∧ d.cry.alarm = (s.d.cry.alarm ||| 1) ∧ d.cry.ctxs = s.d.cry.ctxs.filter (·.place == .waiting) ∧
      d.cry.dig = s.d.cry.dig.map DigCtx.clear ∧ d.cry.records = [] ∧ s.d.free ≤ d.cry.exportKey ∧ d.cry.exportKey < d.free ∧ d.cry.exportCnt = 0 ∧ d.events 0x1C2 = wrap32 (s.d.events 0x1C2 + 1) ∧
      s.d.SameBut ([.cry, .free] ++ settleParts) d) ∧
    (∃ d, exec .cryClockAlarm s = .next { s with d := d } ∧ d.cry.alarm = (s.d.cry.alarm ||| 2) ∧ d.cry.ctxs = s.d.cry.ctxs.filter (·.place == .waiting) ∧
      d.cry.dig = s.d.cry.dig.map DigCtx.clear ∧ d.cry.records = [] ∧ s.d.free ≤ d.cry.exportKey ∧ d.cry.exportKey < d.free ∧ d.cry.exportCnt = 0 ∧ d.events 0x1C2 = wrap32 (s.d.events 0x1C2 + 1) ∧
      s.d.SameBut ([.cry, .free] ++ settleParts) d) ∧
    (∃ d, exec .cryTamperAlarm s = .next { s with d := d } ∧ d.cry.alarm = (s.d.cry.alarm ||| 4) ∧ d.cry.ctxs = s.d.cry.ctxs.filter (·.place == .waiting) ∧
      d.cry.dig = s.d.cry.dig.map DigCtx.clear ∧ d.cry.records = [] ∧ s.d.free ≤ d.cry.exportKey ∧ d.cry.exportKey < d.free ∧ d.cry.exportCnt = 0 ∧ d.cry.lost = true ∧
      (∀ x ∈ d.kvx.store.slots, x.persistent = true) ∧ d.events 0x1C2 = wrap32 (s.d.events 0x1C2 + 1) ∧
      s.d.SameBut ([.cry, .free] ++ settleParts) d)) ∧
  (∀ s : State, s.d.cry.lost = true → s.d.cry.blobHeld = none → ∃ d, exec .cryKeysRestored s = .next { s with d := d } ∧
    d.cry = { s.d.cry with lost := false } ∧ d.events 0x1C7 = wrap32 (s.d.events 0x1C7 + 1) ∧ s.d.SameBut (.cry :: eventParts) d) ∧
  (∀ (s : State) (b : Bytes), s.d.cry.lost = true → s.d.cry.blobHeld = some b →
    ∃ d d', d.cry = { s.d.cry with lost := false, blobHeld := none } ∧ d.events 0x1C7 = wrap32 (s.d.events 0x1C7 + 1) ∧
      s.d.SameBut (.cry :: eventParts) d ∧ d' = d.blobApply b ∧ exec .cryKeysRestored s = .next { s with d := d' } ∧ d'.cry.blobBusy = false) ∧
  (∀ s : State, s.d.cry.lost = false → exec .cryKeysRestored s = .next s)

/-- R462, R466, R477, R478, R485.
The model's choices in it, which no rule of the spec states: the public standards are PRESUMED (log 10); an alarm clears register contexts
(log 77). -/
def Obligations.DigestsAndBlobs : Prop :=
  (∀ (s : State) (p : Path) (v : Word) (d : Drive) (n : Nat) (g : DigCtx), s.reaches p 0xC004 = some d → d.sel p 0xC000 = n →
    d.cry.dig[n]? = some g →
    ∃ l, exec (.digStart p v) s = .next { s with d := { d with cry := { d.cry with dig := l } } } ∧ (∀ j, j ≠ n → l[j]? = d.cry.dig[j]?) ∧
      (v.getLsbD 31 = true → field v.toNat 16 4 < 4 → l[n]? = some { g with
        alg := field v.toNat 16 4, slot := field v.toNat 0 13, isOpen := true, busy := false, done := false, msg := [], res := [], key := [] }) ∧
      (∀ k, v.getLsbD 31 = true → 4 ≤ field v.toNat 16 4 → field v.toNat 16 4 < 7 → d.kvx.store.slotKey (field v.toNat 0 13) = some k →
        l[n]? = some { g with alg := field v.toNat 16 4, slot := field v.toNat 0 13, isOpen := true, busy := false, done := false
                              msg := [], res := [], key := k }) ∧
      (v.getLsbD 31 = true → (7 ≤ field v.toNat 16 4 ∨ (4 ≤ field v.toNat 16 4 ∧ d.kvx.store.slotKey (field v.toNat 0 13) = none)) →
        l[n]? = some { g with err := true }) ∧
      (v.getLsbD 31 = false → l[n]? = some { g with alg := field v.toNat 16 4, slot := field v.toNat 0 13 })) ∧
  (∀ (s : State) (p : Path) (v : Word) (d : Drive) (n : Nat) (g : DigCtx), s.reaches p 0xC014 = some d → d.sel p 0xC000 = n →
    d.cry.dig[n]? = some g → v.getLsbD 0 = true →
    ∃ l, exec (.digPush p v) s = .next { s with d := { d with cry := { d.cry with dig := l } } } ∧ (∀ j, j ≠ n → l[j]? = d.cry.dig[j]?) ∧
      l[n]? = some (if g.isOpen then { g with msg := g.msg ++ (leBytes 4 g.wlo ++ leBytes 4 g.whi) } else { g with err := true })) ∧
  (∀ (s : State) (p : Path) (v : Word) (d : Drive) (n : Nat) (g : DigCtx), s.reaches p 0xC018 = some d → d.sel p 0xC000 = n →
    d.cry.dig[n]? = some g →
    ∃ l, exec (.digLast p v) s = .next { s with d := { d with cry := { d.cry with dig := l } } } ∧ (∀ j, j ≠ n → l[j]? = d.cry.dig[j]?) ∧
      l[n]? = some (if g.isOpen = true ∧ v.toNat % 16 ≤ 8 then
        { g with msg := g.msg ++ (leBytes 4 g.wlo ++ leBytes 4 g.whi).take (v.toNat % 16), isOpen := false, busy := true }
        else { g with err := true })) ∧
  (∀ (s : State) (n : Fin 4) (g : DigCtx), s.d.cry.dig[n.val]? = some g → s.d.cry.digFence ≠ 0xFF → s.d.islState 7 = 0 →
    ∃ l, exec (.digDone n) s = .next { s with d := { s.d with cry := { s.d.cry with dig := l } } } ∧
      (∀ j, j ≠ n.val → l[j]? = s.d.cry.dig[j]?) ∧
      l[n.val]? = some (if g.busy then { g with busy := false, done := true, res := digest g.alg g.key g.msg } else g)) ∧
  (∀ (s : State) (n : Fin 4), s.d.cry.digFence = 0xFF ∨ s.d.islState 7 ≠ 0 → exec (.digDone n) s = .next s) ∧
  (∀ (s : State) (p : Path) (d : Drive) (b : Bytes), s.reaches p 0xB3C0 = some d → d.cry.blobBusy = false → b = d.stagedBlob p →
    (p ≠ .smbus → exec (.blobLoad p) s = .next { s with d := { d with cry := { d.cry with
      blobBusy := false, blobStatus := 0x8001, blobReason := 0 } } }) ∧
    (p = .smbus → d.cry.lost = true → exec (.blobLoad p) s = .next { s with d := { d with cry := { d.cry with
      blobBusy := true, blobHeld := some b } } }) ∧
    (∀ r, p = .smbus → d.cry.lost = false → d.blobRefused b = some r → exec (.blobLoad p) s = .next { s with d := { d with cry := { d.cry with
      blobBusy := false, blobStatus := r.status, blobReason := byteAt r.b 0 } } }) ∧
    (p = .smbus → d.cry.lost = false → d.blobRefused b = none → d.cry.p384Bad = true ∨ d.noCore true true = true →
      ∃ d', exec (.blobLoad p) s = .next { s with d := d' } ∧ d'.cry.blobStatus = 0x9001 ∧ d'.cry.blobSer = d.cry.blobSer ∧
        d.SameBut [.cry, .free] d') ∧
    (∀ r, p = .smbus → d.cry.lost = false → d.blobRefused b = none → d.cry.p384Bad = false → d.noCore true true = false →
      d.openBlob (byteAt b 1 == 1) b = r →
      ∃ d', exec (.blobLoad p) s = .next { s with d := d' } ∧ d'.cry.blobBusy = false ∧
      (∀ e, r = .error e → d'.cry.blobF = wrap32 (d.cry.blobF + 1) ∧ d'.cry.blobReason = e ∧
        d'.cry.blobStatus = (if e = 0xFF then 0x2002 else 0x8003) ∧ d'.cry.blobSer = d.cry.blobSer ∧
        d'.events 0x1C0 = wrap32 (d.events 0x1C0 + 1) ∧ d.SameBut (.cry :: eventParts) d') ∧
      (∀ key, r = .ok key → d'.cry.blobStatus = 0 ∧ d'.cry.blobSer = le b 0x10 8 ∧
        d'.kvx.store.tenant? (le b 4 4) = some { id := le b 4 4, key := key, admin := byteAt b 8 == 1 } ∧
        (∀ j, j ≠ le b 4 4 → d'.kvx.store.tenant? j = d.kvx.store.tenant? j) ∧
        d'.events 0x099 = wrap32 (d.events 0x099 + 1) ∧ d.SameBut ([.cry, .free] ++ settleParts) d')))

/-- R489, R497-R509. Channel states: 0 running, 1 replaying, 2 training, 3 switching, 4 retiring, 5 retired.
The model's choices in it, which no rule of the spec states: when a retirement ends, and what the third one runs (log 62); outcomes are operands (log 12). -/
def Obligations.DramChannels : Prop :=
  (∀ s : State, s.d.dmc.patrol = false → s.d.patrolDue = true →
    exec .patrolTimer s = .next { s with d := { s.d with dmc := { s.d.dmc with patrol := true, patrolPct := 0, patrolLine := 0 } } }) ∧
  (∀ s : State, s.d.dmc.patrol = true ∨ s.d.patrolDue = false → exec .patrolTimer s = .next s) ∧
  (∀ (s : State) (p : Path) (d : Drive), s.reaches p 0xA108 = some d → d.dmc.patrol = false →
    exec (.patrolStart p) s = .next { s with d := { d with dmc := { d.dmc with patrol := true, patrolPct := 0, patrolLine := 0 } } }) ∧
  (∀ (s : State) (ce : List (Fin 4 × Fin 2)), s.d.dmc.patrol = true → ce = Config.correctedBeats s.d.free →
    ∃ d, exec .patrolEnd s = .next { s with d := d } ∧ d.dmc.patrol = false ∧ d.dmc.patrolPct = 0 ∧ d.dmc.patrolLine = 0 ∧
      d.dmc.patrolAt = some s.d.clk.life ∧ d.free = s.d.free + 1 ∧ s.d.SameBut (.dmc :: .free :: eventParts) d ∧
      (ce ≠ [] → d.events 0x1E0 = wrap32 (s.d.events 0x1E0 + ce.length)) ∧
      ∀ n, n < s.d.dmc.chans.length → ∃ k, k = (ce.filter fun x => x.1.val == n).length ∧ d.dmc.chan n = { s.d.dmc.chan n with
        ce := if k = 0 then (s.d.dmc.chan n).ce else wrap32 ((s.d.dmc.chan n).ce + k) }) ∧
  (∀ s : State, s.d.dmc.patrol = false → exec .patrolEnd s = .next s) ∧
  (∀ (s : State) (n : Fin 4), n.val < s.d.dmc.chans.length →
    ((s.d.dmc.chan n).state = 0 → s.d.dmc.moving = false → s.d.retrainDue n = true →
      ∃ d, exec (.dramRetrainTimer n) s = .next { s with d := d } ∧
        d.dmc.chan n = { s.d.dmc.chan n with state := 2, target := (s.d.dmc.chan n).speed } ∧
        (∀ j, j ≠ n.val → d.dmc.chan j = s.d.dmc.chan j) ∧
        (∃ a ∈ d.upd.actions, a.serial = s.d.upd.actSerial + 1 ∧ a.code = 8 ∧ a.target = n.val ∧ a.host = false) ∧
        s.d.SameBut ([.dmc, .upd] ++ eventParts) d) ∧
    ((s.d.dmc.chan n).state ≠ 0 ∨ s.d.dmc.moving = true ∨ s.d.retrainDue n = false → exec (.dramRetrainTimer n) s = .next s)) ∧
  (∀ (s : State) (p : Path) (d : Drive) (n : Nat), s.reaches p 0xA108 = some d → d.sel p 0xA000 = n → n < 4 → n < d.dmc.chans.length →
    (d.dmc.chan n).state = 0 → d.dmc.moving = false →
    ∃ d', exec (.dramRetrain p) s = .next { s with d := d' } ∧
      d'.dmc.chan n = { d.dmc.chan n with state := 2, target := (d.dmc.chan n).speed } ∧
      (∃ a ∈ d'.upd.actions, a.serial = d.upd.actSerial + 1 ∧ a.code = 8 ∧ a.target = n ∧ a.host = true) ∧
      d.SameBut ([.dmc, .upd] ++ eventParts) d') ∧
  (∀ (s : State) (n : Fin 4), n.val < s.d.dmc.chans.length → (s.d.dmc.chan n).state = 2 → (∀ c ∈ s.d.dmc.chans, c.pending = 0) →
    ∃ d, exec (.trainingComplete n) s = .next { s with d := d } ∧
      d.dmc.chan n = { s.d.dmc.chan n with
        state := 0, trains := wrap32 ((s.d.dmc.chan n).trains + 1), trainedAt := s.d.clk.life
        stored := if bit (s.d.dmc.chan n).stored ((s.d.dmc.chan n).target - 1) then (s.d.dmc.chan n).stored
          else (s.d.dmc.chan n).stored + 2 ^ ((s.d.dmc.chan n).target - 1) } ∧
      s.d.SameBut ([.dmc, .upd] ++ eventParts) d) ∧
  (∀ (s : State) (n : Fin 4), n.val < s.d.dmc.chans.length → (s.d.dmc.chan n).state = 3 → (∀ c ∈ s.d.dmc.chans, c.pending = 0) →
    (∀ j, j < 4 → j ≠ n.val → (s.d.dmc.chan j).state ≠ 3) →
    ∃ d, exec (.speedSwitchDone n) s = .next { s with d := d } ∧
      d.dmc.chan n = { s.d.dmc.chan n with state := 0, speed := (s.d.dmc.chan n).target } ∧ s.d.SameBut [.dmc] d) ∧
  (∀ (s : State) (n : Fin 4), (s.d.dmc.chan n).state ≠ 3 → exec (.speedSwitchDone n) s = .next s) ∧
  (∀ (s : State) (n : Fin 4) (sub : Bool), n.val < s.d.dmc.chans.length → (s.d.dmc.chan n).state ≠ 5 →
    ∃ d, exec (.parityAlert n sub) s = .next { s with d := d } ∧ d.dmc.chan n = { s.d.dmc.chan n with
        par := wrap32 ((s.d.dmc.chan n).par + 1), state := if (s.d.dmc.chan n).state = 0 then 1 else (s.d.dmc.chan n).state } ∧
      (∀ j, j ≠ n.val → d.dmc.chan j = s.d.dmc.chan j) ∧
      ((s.d.dmc.chan n).state ≤ 1 → n.val < s.d.dmc.queues.length → (d.dmc.queue n).stopped.contains sub = true) ∧
      (∀ j, j ≠ n.val → d.dmc.queue j = s.d.dmc.queue j) ∧ s.d.SameBut [.dmc] d) ∧
  (∀ (s : State) (n : Fin 4) (lost : Bool), n.val < s.d.dmc.chans.length → (s.d.dmc.chan n).state = 1 →
    (∃ d, exec (.replayComplete n true lost) s = .next { s with d := d } ∧ d.dmc.chan n = { s.d.dmc.chan n with
        state := 0, fails := 0, replays := wrap32 ((s.d.dmc.chan n).replays + 1) } ∧
      (n.val < s.d.dmc.queues.length → (d.dmc.queue n).stopped = []) ∧ s.d.SameBut [.dmc] d) ∧
    ((s.d.dmc.chan n).fails < 2 →
      ∃ d, exec (.replayComplete n false lost) s = .next { s with d := d } ∧ d.dmc.chan n = { s.d.dmc.chan n with
          fails := (s.d.dmc.chan n).fails + 1, replayF := wrap32 ((s.d.dmc.chan n).replayF + 1) } ∧
        d.events 0x1E2 = wrap32 (s.d.events 0x1E2 + 1) ∧ s.d.SameBut (.dmc :: eventParts) d) ∧
    (2 ≤ (s.d.dmc.chan n).fails →
      ∃ d t, exec (.replayComplete n false false) s = .next { s with d := d } ∧ (d.dmc.chan n).state = 4 ∧
        (d.dmc.chan n).retEnd = some t ∧ s.d.clk.life ≤ t ∧ t ≤ s.d.clk.life + 262000000 ∧
        d.events 0x1E2 = wrap32 (s.d.events 0x1E2 + 1) ∧ s.d.SameBut ([.dmc, .upd] ++ eventParts) d)) ∧
  (∀ (s : State) (n : Nat), n < s.d.dmc.chans.length → (s.d.dmc.chan n).state = 4 → s.d.dmc.retired ≤ 1 →
    ∃ d, s.retired n = { s with d := d } ∧ (d.dmc.chan n).state = 5 ∧ (d.dmc.chan n).speed = 0 ∧ (d.dmc.chan n).retEnd = none ∧
      (s.d.dmc.retired = 1 → s.d.pwr.roWant = 0 → s.d.pwr.roCause = 0 → d.pwr.roWant = 4) ∧
      d.events 0x1E3 = wrap32 (s.d.events 0x1E3 + 1) ∧ s.d.SameBut ([.dmc, .idx, .med, .pwr] ++ eventParts) d) ∧
  (∀ s : State, (∀ n, n < 4 → ∀ t, (s.d.dmc.chan n).retEnd = some t → s.d.clk.life < t) → s.retireEnds = s) ∧
  (∀ (s : State) (n t : Nat), n < 4 → (s.d.dmc.chan n).retEnd = some t → t ≤ s.d.clk.life →
    (∀ j, j < 4 → j ≠ n → (s.d.dmc.chan j).retEnd = none) → s.retireEnds = s.retired n) ∧
  (∀ (s : State) (n : Fin 4) (sub mo : Bool) (reg : Nat) (a : BitVec 64) (holds : Option Nat) (recent : Nat),
    n.val < s.d.dmc.chans.length → (s.d.dmc.chan n).state ≠ 5 → s.d.pwr.cur ≠ 0 → s.d.pwr.cur ≠ 8 →
    recent = ((s.d.dmc.chan n).ueAt.filter fun t => decide (s.d.clk.life < t + 3600000000000)).length →
    ((reg = 0 → ∀ id, holds = some id → s.d.kvx.pastTurn id = false) → (3 ≤ reg → reg ≤ 7 → mo = true) → recent < 16 →
      ∃ d, exec (.dramUncorrectable n sub reg a holds mo) s = .next { s with d := d } ∧
        (d.dmc.chan n).ue = wrap32 ((s.d.dmc.chan n).ue + 1) ∧ (d.dmc.chan n).errAddr = a.toNat ∧ (d.dmc.chan n).errReg = reg ∧
        (d.dmc.chan n).errSub = sub ∧ (d.dmc.chan n).errVal = true ∧ (d.dmc.chan n).state = (s.d.dmc.chan n).state ∧
        d.events 0x1E1 = wrap32 (s.d.events 0x1E1 + 1) ∧
        (holds = none → d.dmc.vals = s.d.dmc.vals ∧ s.d.SameBut (.dmc :: eventParts) d) ∧
        (∀ id, holds = some id → reg = 0xA → d.dmc.vals = s.d.dmc.vals.filter (fun v => v.1 != id) ∧ s.d.SameBut (.dmc :: eventParts) d) ∧
        (∀ id, holds = some id → reg = 9 → (∀ x ∈ d.idx.cached, x.frame = id → d.idx.pages.any fun p => p.ks == x.ks && p.no == x.no && p.dirty) ∧
          s.d.SameBut ([.idx, .dmc, .med] ++ eventParts) d) ∧
        (∀ id x c y rs b, holds = some id → reg = 0 →
          (s.d.kvx.staged.find? fun x => x.recId == id && x.serial.isNone && x.len != 0) = some x → s.d.ctx? x.sq x.ord = some c →
          s.d.soleCtx x.sq x.ord = true → c.alive = true → c.fail = none → s.d.isDead c.conn = false → c.valueDesc x.op = some y →
          valueReads x.op true y x.len 0x50 = .ok (rs, b) →
          (∀ z ∈ d.kvx.staged, z.recId ≠ id) ∧ s.d.SameBut ([.kvx, .dmc] ++ eventParts) d ∧
          ∃ c', d.ctx? x.sq x.ord = some c' ∧ c'.vals = c.vals.filter (fun v => v.1 != x.op) ∧
            c'.reads.map (fun r => (r.what, r.addr, r.rkey, r.len)) = (c.reads ++ rs).map (fun r => (r.what, r.addr, r.rkey, r.len)))) ∧
    ((reg = 0 → ∀ id, holds = some id → s.d.kvx.pastTurn id = false) → (3 ≤ reg → reg ≤ 7 → mo = true) → 16 ≤ recent →
      ∃ d, exec (.dramUncorrectable n sub reg a holds mo) s = .next { s with d := d } ∧ (d.dmc.chan n).state = 4 ∧
        d.events 0x1E1 = wrap32 (s.d.events 0x1E1 + 1) ∧ s.d.SameBut ([.kvx, .idx, .dmc, .med, .upd] ++ eventParts) d) ∧
    (s.d.pwr.serving = true → (∃ id, reg = 0 ∧ holds = some id ∧ s.d.kvx.pastTurn id = true) ∨ (3 ≤ reg ∧ reg ≤ 7 ∧ mo = false) →
      ∃ t, exec (.dramUncorrectable n sub reg a holds mo) s = .next t ∧ t.d.pwr.cur = 0 ∧ t.nv.fuses = s.nv.fuses ∧ t.pending = s.pending ∧
        t.d.bank.holdUps = wrap32 (s.d.bank.holdUps + 1)))

/-- R413-R416, R547-R549, R560. `kept` are the commit records that replay keeps.
The model's choices in it, which no rule of the spec states: what BOOT finds is an operand (log 12); the order within BOOT, replay and the
end of it are read as in log entries 96 and 98 to 104. -/
def Obligations.BootAndReplay : Prop :=
  (∀ (s : State) (b : BootFinds), s.d.pwr.cur = 1 → s.d.upd.bootRun = none → s.nv.bootRom.1 = none →
    ∃ d, exec (.boot b) s = .next { s with nv := s.nv.bootRom.2.2, d := d } ∧ d.pwr.cur = 2 ∧
      d.upd.falls = wrap32 (s.d.upd.falls + s.nv.bootRom.2.1.length) ∧ d.kvx = s.d.kvx ∧
      d.events 0x001 = wrap32 (s.d.events 0x001 + 1)) ∧
  (∀ (s : State) (b : BootFinds) (slot : Nat) (kept : List CommitRec), s.d.pwr.cur = 1 → s.d.upd.bootRun = none →
    s.nv.bootRom.1 = some slot → s.nv.bootRom.2.2.preload.1 = [] → s.d.upd.sanState ≠ 1 → s.d.kvx.ctxs = [] →
    s.d.kvx.store.driveKey ≠ [] → (keepRecords (s.d.kvx.doomed b.lost) s.d.kvx.log []).1 = kept →
    (∃ t, exec (.boot b) s = .next t ∧ t.pending = s.pending ∧ t.nv = s.nv.bootRom.2.2 ∧ t.d.pwr.cur = 1 ∧ t.d.upd.bootRun.isSome = true ∧
      t.d.upd.stage = (if t.nv.boot.trial then 4 else 0) ∧ t.d.upd.cores = (coreRoles b.coresPass).1 ∧
      t.d.upd.spares = (coreRoles b.coresPass).2 ∧ t.d.kvx.log = s.d.kvx.log ∧ t.d.kvx.base = s.d.kvx.base ∧
      t.d.kvx.store = (let x := kept.foldl (fun x r => x.applyAll r.serial r.effs) s.d.kvx.base
        { x with
          slots := x.slots.filter (·.persistent)
          kss := x.kss.map fun k =>
            if k.slot = 0xFFFF ∨ x.slots.any (fun z => z.slot == k.slot && z.persistent) then k else { k with mediaKey := none } })) ∧
    (∀ r ∈ kept, r ∈ s.d.kvx.log ∧ s.d.kvx.doomed b.lost r = false) ∧
    ((∀ r ∈ s.d.kvx.log, s.d.kvx.doomed b.lost r = false) → kept = s.d.kvx.log) ∧
    (∀ x l, s.d.kvx.log = x :: l → s.d.kvx.doomed b.lost x = true →
      ∀ r ∈ kept, ¬ (x.domain = r.domain ∧ (r.strict = true ∨ x.keys.meets r.keys = true)))) ∧
  (∀ (s : State) (ms flags : Nat), s.d.upd.bootRun = some flags → s.d.pwr.cur = 1 → s.d.upd.late = [] →
    ∃ d, exec (.replayDone ms) s = .next { s with d := d } ∧ d.pwr.cur = s.d.pwr.bootEnd ∧
      d.kvx = { s.d.kvx with base := s.d.kvx.store, log := [], staged := [] } ∧ d.bank.replayMs = min 0xFFFF ms ∧
      d.events 0x017 = wrap32 (s.d.events 0x017 + 1) ∧ d.events 0x000 = wrap32 (s.d.events 0x000 + 1)) ∧
  (∀ (s : State) (b : BootFinds) (ms : Nat), s.d.pwr.cur ≠ 1 → exec (.boot b) s = .next s ∧ exec (.replayDone ms) s = .next s)

/-- R563-R573, R590. Stages: 1 VERIFIED, 3 ACTIVATING, 4 TRIAL, 5 ROLLING_BACK.
The model's choices in it, which no rule of the spec states: islands, judgement and a failed rollback are read as in log entry 64,
`UPD_ACTIVATED` and the fallback as in 98, fuses in one step as in 97. -/
def Obligations.ActivationAndRollback : Prop :=
  (∀ (s : State) (t : Nat), s.d.upd.trialEnd = some t → s.d.upd.stage = 4 → t ≤ s.d.clk.life →
    ∃ d, exec .trialTimeout s = .next { s with d := d } ∧ d.upd.stage = 5 ∧ d.upd.cause = 0 ∧ s.d.Starts 0x0E 0 1 false d ∧
      s.d.SameBut (.upd :: eventParts) d) ∧
  (∀ s : State, s.d.upd.stage ≠ 4 → exec .trialTimeout s = .next s) ∧
  (∀ (s : State) (t : Nat), s.d.upd.trialEnd = some t → s.d.clk.life < t → exec .trialTimeout s = .next s) ∧
  (∀ (s : State) (p : Path) (v : Word) (d : Drive), s.reaches p 0xE01C = some d →
    (field v.toNat 24 8 = 0x55 → v.getLsbD 0 = true → d.upd.stage = 4 →
      ∃ d', exec (.updRollback p v) s = .next { s with d := d' } ∧ d'.upd.stage = 5 ∧ d'.upd.cause = 1 ∧ d.Starts 0x0E 0 1 true d' ∧
        d.SameBut (.upd :: eventParts) d') ∧
    (field v.toNat 24 8 ≠ 0x55 ∨ (v.getLsbD 0 = true ∧ d.upd.stage ≠ 4) →
      exec (.updRollback p v) s = .next { s with d := { d with upd := { d.upd with cmdErr := true } } })) ∧
  (∀ (s : State) (n st : Nat) (a : Action), (s.d.upd.running.find? fun a => a.serial == n) = some a → a.code = 0x0E →
    s.d.upd.clamped = [] → s.d.upd.stage = 3 → s.nv.bodyOk s.nv.inactive = true →
    (∃ d, exec (.liveActionEnd n true st) s =
        .next { s with nv := s.nv.writeBoot (s.nv.activation s.d.clk.life), d := d } ∧ d.upd.stage = 4 ∧ d.upd.step = 0 ∧
      d.upd.stall = st ∧ d.upd.trialEnd = some (s.d.clk.life + 86400000000000) ∧ d.events 0x1F2 = wrap32 (s.d.events 0x1F2 + 1) ∧
      d.kvx.store = s.d.kvx.store ∧
      (∀ c, s.d.activator = some c → s.d.soleCtx c.sq c.ord = true →
        ∃ c', d.ctx? c.sq c.ord = some c' ∧ c'.settled = true ∧ c'.res.status = 0)) ∧
    (∃ d, exec (.liveActionEnd n false st) s = .next { s with d := d } ∧ d.upd.stage = 1 ∧
      d.events 0x1F5 = wrap32 (s.d.events 0x1F5 + 1) ∧ d.kvx.store = s.d.kvx.store ∧
      (∀ c, s.d.activator = some c → s.d.soleCtx c.sq c.ord = true →
        ∃ c', d.ctx? c.sq c.ord = some c' ∧ c'.settled = true ∧ c'.res.status = 0x9001))) ∧
  (∀ (s : State) (n st : Nat) (a : Action), (s.d.upd.running.find? fun a => a.serial == n) = some a → a.code = 0x0E → s.d.upd.clamped = [] →
    s.d.upd.stage = 5 →
    (∃ d, exec (.liveActionEnd n true st) s = .next { s with
        nv := s.nv.writeBoot { s.nv.boot with slot := s.nv.boot.prevSlot, trial := false, recovered := false, trials := 0
                                              prevSlot := s.nv.boot.slot, rev := s.nv.boot.prevRev, prevRev := s.nv.boot.rev, actLife := 0 }
        d := d } ∧ d.upd.stage = 0 ∧ d.upd.trialEnd = none ∧ d.events 0x1F3 = wrap32 (s.d.events 0x1F3 + 1) ∧ d.kvx = s.d.kvx) ∧
    (∃ d, exec (.liveActionEnd n false st) s = .next { s with d := d } ∧ d.upd.stage = 4 ∧
      d.events 0x1F5 = wrap32 (s.d.events 0x1F5 + 1) ∧ d.kvx = s.d.kvx))

/-- R40, R42, R575-R579, R591. `d` is the drive that the write reaches, `t` the target of `ISL_ACT`, `i` the island selected.
The model's choices in it, which no rule of the spec states: order and isolation of actions (log 63), live resets and activations (log 64),
requests refused (log 61), how many commands a clamp holds (log 130). -/
def Obligations.LiveActions : Prop :=
  (∀ (s : State) (p : Path) (v : Word) (d : Drive), s.reaches p 0x1100 = some d → field v.toNat 24 8 ≠ 0x49 →
    exec (.actCoreReplace p v) s = .next { s with d := { d with upd := { d.upd with actErr := true } } } ∧
    exec (.actTileFence p v) s = .next { s with d := { d with upd := { d.upd with actErr := true } } } ∧
    exec (.actDieRetire p v) s = .next { s with d := { d with upd := { d.upd with actErr := true } } } ∧
    exec (.actDieRecalibrate p v) s = .next { s with d := { d with upd := { d.upd with actErr := true } } } ∧
    exec (.actLaneRetrain p v) s = .next { s with d := { d with upd := { d.upd with actErr := true } } }) ∧
  (∀ (s : State) (p : Path) (v : Word) (d : Drive) (t : Nat), s.reaches p 0x1100 = some d → field v.toNat 24 8 = 0x49 →
    field v.toNat 0 16 = t → d.actBusy (actIsland (field v.toNat 16 8) t) = false →
    (field v.toNat 16 8 = 1 → t < 32 → d.upd.cores.getLsbD t = true → d.upd.spares.getLsbD t = false →
      (∃ j < 32, d.upd.spares.getLsbD j = true ∧ j / 8 = t / 8) →
      ∃ d' j, exec (.actCoreReplace p v) s = .next { s with d := d' } ∧ d'.upd.cores.getLsbD t = false ∧
        d'.upd.fencedCores.getLsbD t = true ∧ j / 8 = t / 8 ∧ d.upd.spares.getLsbD j = true ∧ d'.upd.cores.getLsbD j = true ∧
        d'.upd.spares.getLsbD j = false ∧ d'.events 0x00B = wrap32 (d.events 0x00B + 1) ∧ d.Starts 1 0 t true d' ∧
        d.SameBut ([.upd, .pwr] ++ eventParts) d') ∧
    (field v.toNat 16 8 = 2 → t < 16 → t < d.idx.tiles.length → (d.idx.tile t).fenced = false → d.idx.patternQuad (t / 4) = false →
      ∃ d', exec (.actTileFence p v) s = .next { s with d := d' } ∧ d'.idx.tile t = { d.idx.tile t with fenced := true, pend := true, todo := 0 } ∧
        d'.idx.cam = d.idx.cam.filter (fun r => r.tile != t) ∧ (∀ j, j ≠ t → d'.idx.tile j = d.idx.tile j) ∧
        d'.events 0x182 = wrap32 (d.events 0x182 + 1) ∧ d.Starts 2 0 t true d' ∧ d.SameBut ([.idx, .upd] ++ eventParts) d') ∧
    (field v.toNat 16 8 = 3 → t < 512 → (d.med.die t).state = 0 → (d.med.die t).pos < 15 →
      d.med.posDie (t / 16) (d.med.die t).pos = t → (d.med.chan (t / 16)).vacant.contains (d.med.die t).pos = false →
      (d.med.chan (t / 16)).spareUsed = false → t % 16 ≠ 15 →
      ∃ d', exec (.actDieRetire p v) s = .next { s with d := d' } ∧ (d'.med.die t).state = 3 ∧
        (d'.med.die (16 * (t / 16) + 15)).state = 2 ∧ (d'.med.die (16 * (t / 16) + 15)).pos = (d.med.die t).pos ∧
        (d'.med.chan (t / 16)).spareUsed = true ∧ d.Starts 3 0 t true d' ∧ d.SameBut ([.med, .upd, .pwr] ++ eventParts) d') ∧
    (field v.toNat 16 8 = 4 → t < 512 → (d.med.die t).state ≠ 3 →
      ∃ d', exec (.actDieRecalibrate p v) s = .next { s with d := d' } ∧ d.Starts 4 0 t true d' ∧ d.SameBut (.upd :: eventParts) d') ∧
    (field v.toNat 16 8 = 5 → t < 4 →
      ∃ d', exec (.actLaneRetrain p v) s = .next { s with d := d' } ∧ (d'.port (if t < 2 then .a else .b)).link.up = false ∧
        d.Starts 5 0 t true d' ∧ d.SameBut (.upd :: portParts (if t < 2 then .a else .b)) d')) ∧
  (∀ (s : State) (p : Path) (v : Word) (d : Drive), s.reaches p 0x1008 = some d → field v.toNat 24 8 ≠ 0x49 →
    exec (.islFence p v) s = .next { s with d := { d with upd := { d.upd with actErr := true } } } ∧
    exec (.islRelease p v) s = .next { s with d := { d with upd := { d.upd with actErr := true } } } ∧
    exec (.islReset p v) s = .next { s with d := { d with upd := { d.upd with actErr := true } } }) ∧
  (∀ (s : State) (p : Path) (v : Word) (d : Drive) (i : Nat), s.reaches p 0x1008 = some d → field v.toNat 24 8 = 0x49 →
    d.sel p 0x1000 = i → islAllowed (field v.toNat 0 4) i = true → d.actBusy i = false →
    (9 ≤ i ∧ i ≤ 0xC → 12 ≤ d.upd.workingWithout i) →
    (field v.toNat 0 4 = 1 → d.upd.fenced.contains i = false →
      ∃ d', exec (.islFence p v) s = .next { s with d := d' } ∧ d'.upd.fenced = d.upd.fenced ++ [i] ∧ d'.upd.inReset = d.upd.inReset ∧
        (i = 2 ∨ i = 3 → (d'.port (islPort i)).link.up = false) ∧ d.Starts (islAction i) 1 i true d') ∧
    (field v.toNat 0 4 = 2 → d.upd.fenced.contains i = true →
      ∃ d', exec (.islRelease p v) s = .next { s with d := d' } ∧ d'.upd.fenced = d.upd.fenced ∧ d'.upd.inReset = d.upd.inReset ∧
        d.Starts (islAction i) 2 i true d' ∧ d.SameBut (.upd :: eventParts) d') ∧
    (field v.toNat 0 4 = 3 →
      ∃ d', exec (.islReset p v) s = .next { s with d := d' } ∧ d'.upd.fenced = d.upd.fenced ∧ d'.upd.inReset = d.upd.inReset ++ [i] ∧
        (i = 2 ∨ i = 3 → (d'.port (islPort i)).link.up = false) ∧ (i = 6 → d'.idx.cam = []) ∧ d.Starts (islAction i) 3 i true d')) ∧
  (∀ (s : State) (n : Fin 32), s.d.upd.cores.getLsbD n = true → s.d.upd.spares.getLsbD n = false →
    (∃ j < 32, s.d.upd.spares.getLsbD j = true ∧ j / 8 = n.val / 8) →
    ∃ d j, exec (.coreFailure n) s = .next { s with d := d } ∧ d.upd.cores.getLsbD n = false ∧ d.upd.fencedCores.getLsbD n = true ∧
      j / 8 = n.val / 8 ∧ s.d.upd.spares.getLsbD j = true ∧ d.upd.cores.getLsbD j = true ∧ d.upd.spares.getLsbD j = false ∧
      d.events 0x00B = wrap32 (s.d.events 0x00B + 1) ∧ s.d.Starts 1 0 n false d ∧ s.d.SameBut ([.upd, .pwr] ++ eventParts) d) ∧
  (∀ (s : State) (n : Fin 32), s.d.upd.cores.getLsbD n = false →
    exec (.coreFailure n) s = .next { s with d := { s.d with upd := { s.d.upd with
      spares := s.d.upd.spares &&& ~~~ maskOf [n.val], fencedCores := s.d.upd.fencedCores ||| maskOf [n.val] } } }) ∧
  (∀ (s : State) (k st : Nat) (a : Action), (s.d.upd.running.find? fun a => a.serial == k) = some a → s.d.upd.clamped = [] →
    (a.code ∈ [0x06, 0x0A, 0x0C, 0x0D] → a.op = 2 → ∃ d, exec (.liveActionEnd k true st) s = .next { s with d := d } ∧
      d.upd.fenced = s.d.upd.fenced.filter (· != a.target) ∧ d.upd.inReset = s.d.upd.inReset) ∧
    (a.code ∈ [0x06, 0x0A, 0x0C, 0x0D] → a.op = 3 → ∃ d, exec (.liveActionEnd k true st) s = .next { s with d := d } ∧
      d.upd.inReset = s.d.upd.inReset.filter (· != a.target) ∧
      lookupD d.upd.resets a.target 0 = wrap32 (lookupD s.d.upd.resets a.target 0 + 1)) ∧
    (a.code = 4 → ∃ d, exec (.liveActionEnd k true st) s = .next { s with d := d } ∧ (d.med.die a.target).entry.isSome = true ∧
      (d.med.die a.target).calAt = s.d.clk.installed) ∧
    (a.code = 4 → ∃ d, exec (.liveActionEnd k false st) s = .next { s with d := d } ∧ d.med = s.d.med)) ∧
  (∀ (s : State) (k st : Nat) (ok : Bool), (s.d.upd.running.find? fun a => a.serial == k) = none → s.d.upd.clamped = [] →
    exec (.liveActionEnd k ok st) s = .next s) ∧
  (∀ (s : State) (q tag i : Nat) (c : Ctx), (s.d.find? q tag fun x => s.d.turnAllowed x) = some c → c.fail = none →
    s.d.clampOf c = some i → s.d.upd.clamped = [] →
    ∃ t, exec (.turn q tag) s = .next t ∧ t.d.upd.clamped = (if 0 < Config.clampRoom i then [(i, c.sq, c.ord)] else []) ∧ s.d.Kept t.d ∧
      s.SameBut (.upd :: settleParts) t) ∧
  (∀ (s : State) (k st q o : Nat) (a : Action) (c : Ctx), (s.d.upd.running.find? fun a => a.serial == k) = some a →
    a.code ∈ [0x0A, 0x0C, 0x0D] → a.op = 2 → s.d.upd.clamped = [(a.target, q, o)] → s.d.ctx? q o = some c → s.d.turnAllowed c = true →
    ∃ d, s.d.SameBut (.upd :: eventParts) d ∧ d.upd.fenced = s.d.upd.fenced.filter (· != a.target) ∧ d.upd.clamped = [] ∧
      (d.islState a.target = 0 → exec (.liveActionEnd k true st) s = .next (({ s with d := d } : State).turnCtx c).wake))

/-- R580-R586. Test states: 1 running, 2 passed, 3 failed.
The model's choices in it, which no rule of the spec states: the steps of a sanitize and which blocks fail in it (log 66), the coded state of a test (log 65), a failed
part 7 (log 61), progress is an operand (log 12). -/
def Obligations.SelftestAndSanitize : Prop :=
  (∀ (s : State) (u : TestUnit) (t : SelfTest) (l : List SelfTest), s.d.upd.tests = t :: l → t.state = 1 →
    (u.ok = true → u.last = false → u.part ∉ [5, 7, 8] →
      exec (.selftestUnit u) s = .next { s with d := { s.d with upd := { s.d.upd with tests := { t with
        read := t.read + u.read, step2 := t.step2 + u.step2, waited := t.waited + u.waited, pct := min 100 u.progress
        loc := if t.loc = 0 then u.locator else t.loc } :: l } } }) ∧
    (u.ok = true → u.last = false → ∃ d x, exec (.selftestUnit u) s = .next { s with d := d } ∧ d.upd.tests = x :: l ∧ x.state = 1 ∧
      x.read = t.read + u.read ∧ s.d.SameBut [.upd, .med, .bank, .dmc, .free] d ∧
      (u.part = 7 → u.locator ≠ 0 → locNames u.locator = true → s.d.med.indexFrame u.locator = false →
        ∀ y, s.d.med.segOf u.locator = some y → y.id ∈ d.med.marks) ∧
      (u.part = 8 → s.d.dmc.patrolAt = none → d.dmc.patrol = true)) ∧
    (u.ok = true → u.last = true →
      ∃ d x, exec (.selftestUnit u) s = .next { s with d := d } ∧ d.upd.tests = x :: l ∧ x.state = 2 ∧ x.pct = 100 ∧ x.kind = t.kind ∧
        x.read = t.read + u.read ∧ x.stop = s.d.clk.life ∧ d.events 0x1F8 = wrap32 (s.d.events 0x1F8 + 1) ∧
        s.d.SameBut ([.upd, .med, .bank, .dmc, .free] ++ eventParts) d) ∧
    (u.ok = false → ∃ d x, exec (.selftestUnit u) s = .next { s with d := d } ∧ d.upd.tests = x :: l ∧ x.state = 3 ∧ x.part = u.part ∧
      x.unit = u.unit ∧ x.kind = t.kind ∧ x.stop = s.d.clk.life ∧ d.events 0x1F8 = wrap32 (s.d.events 0x1F8 + 1))) ∧
  (∀ (s : State) (u : TestUnit), (∀ t l, s.d.upd.tests = t :: l → t.state ≠ 1) → exec (.selftestUnit u) s = .next s) ∧
  (∀ (s : State) (n : Nat), s.d.upd.sanState ≠ 1 → exec (.sanitizeStepComplete n) s = .next s) ∧
  (∀ (s : State) (n : Nat), s.d.upd.sanState = 1 →
    ∃ t, exec (.sanitizeStepComplete n) s = .next t ∧ t.pending = s.pending ∧ t.nv.fuses = s.nv.fuses ∧
      (s.d.upd.sanStep = 1 → (∀ c ∈ s.d.kvx.ctxs, c.turned = true → c.settled = true) →
        t.d.upd.sanStep = 2 ∧ t.d.kvx.store.snaps = [] ∧ t.d.kvx.watches = [] ∧ t.d.kvx.window = [] ∧
        (∀ r ∈ s.d.kvx.store.recs, r.cur = true → r ∈ t.d.kvx.store.recs)) ∧
      (s.d.upd.sanStep = 2 → t.d.upd.sanStep = 3 ∧ t.d.upd.nonce = (s.d.draw 32).1 ∧ s.d.SameBut [.upd, .free] t.d) ∧
      (s.d.upd.sanStep = 3 → t.d.upd.sanStep = 4 ∧ t.d.kvx.store.slots = [] ∧ t.d.jack.code = 0 ∧
        (∀ k ∈ t.d.kvx.store.kss, k.mediaKey = none) ∧ t.d.kvx.store.recs = s.d.kvx.store.recs ∧ t.d.cry.records = [] ∧
        (∀ x ∈ t.d.cry.ctxs, ∀ n, x.place ≠ .exported n) ∧ s.d.SameBut ([.cry, .jack, .upd, .free] ++ settleParts) t.d) ∧
      (s.d.upd.sanStep = 4 → t.d.kvx.store.kss = [] ∧ t.d.kvx.store.recs = [] ∧ t.d.kvx.log = [] ∧ t.d.kvx.base = t.d.kvx.store ∧
        t.d.med.segs = [] ∧ t.d.idx.cam = [] ∧ t.d.idx.cached = [] ∧ s.d.SameBut ([.kvx, .idx, .med, .upd, .free] ++ eventParts) t.d ∧
        (s.d.upd.sanBlock = true → t.d.upd.sanStep = 5 ∧ t.d.upd.sanState = 1)) ∧
      (s.d.upd.sanStep = 5 ∨ (s.d.upd.sanStep = 4 ∧ s.d.upd.sanBlock = false) →
        t.d.upd.sanState = 2 ∧ t.d.upd.sanStep = 6 ∧ t.d.upd.sanCount = s.d.upd.sanCount + 1 ∧ t.d.upd.sanEnd = s.d.clk.life ∧
        t.d.events 0x1F7 = wrap32 (s.d.events 0x1F7 + 1)))

/-- R633-R637. The completion codes and the fields behind them are DSP0236's (log entries of the management bus); `p` is a block write.
The model's choices in it, which no rule of the spec states: control messages are PRESUMED from DSP0236 (log 92), dropped packets are
counted as in 93, the form of answers is that of 94, bit 0 of the alert response is free (log 95). -/
def Obligations.BusMessages : Prop :=
  (∀ (s : State) (p : Bytes), s.d.reachable = true → 9 ≤ p.length → byteAt p 0 = 2 * s.d.mgmt.addr → p.getLast? ≠ some (pec p.dropLast) →
    exec (.mctpPacket p) s = .next { s with d := { s.d with mgmt := { s.d.mgmt with pecErr := wrap32 (s.d.mgmt.pecErr + 1) } } }) ∧
  (∀ (s : State) (p : Bytes) (src tag : Nat), s.d.reachable = true → 10 ≤ p.length → p.length = byteAt p 2 + 4 →
    byteAt p 0 = 2 * s.d.mgmt.addr → byteAt p 1 = 0x0F → bit (byteAt p 3) 0 = true → byteAt p 4 % 16 = 1 → byteAt p 5 = s.d.mgmt.eid →
    byteAt p 6 = src → byteAt p 7 % 8 = tag → bit (byteAt p 7) 3 = true → bit (byteAt p 7) 7 = true →
    p.getLast? = some (pec p.dropLast) → (∀ a ∈ s.d.mgmt.asms, ¬ (a.src = src ∧ a.tag = tag)) → s.d.mgmt.asms.length < 4 →
    (∀ y t, bit (byteAt p 7) 6 = true → p.length ≤ 73 → s.message ((p.drop 8).take (p.length - 9)) = (some y, t) →
      ∃ l, exec (.mctpPacket p) s = .next { t with d := { t.d with mgmt := { t.d.mgmt with resp := l, tries := 0, out := t.d.mgmt.out ++ l } } } ∧
        l ≠ [] ∧ ∀ q ∈ l, q.getLast? = some (pec q.dropLast) ∧ q.length ≤ 73) ∧
    (bit (byteAt p 7) 6 = false → p.length = 73 →
      exec (.mctpPacket p) s = .next { s with d := { s.d with mgmt := { s.d.mgmt with asms := s.d.mgmt.asms ++
        [{ tag := tag, src := src, seq := field (byteAt p 7) 4 2, body := (p.drop 8).take 64 }] } } })) ∧
  (∀ (s : State) (eid : Byte) (op : BitVec 2), s.d.reachable = true → op.toNat < 2 → eid ≠ 0 → eid ≠ 0xFF →
    exec (.setEndpointId eid op) s = .next { s with d := { s.d with mgmt := { s.d.mgmt with
      eid := eid.toNat, resp := [[0, 0, 1, 0, 0, eid, 0]], tries := 0, out := s.d.mgmt.out ++ [[0, 0, 1, 0, 0, eid, 0]] } } }) ∧
  (∀ s : State, s.d.reachable = true →
    (∀ x : Bytes, [0, 0, 2, 0, BitVec.ofNat 8 s.d.mgmt.eid, 0, 0] = x → exec .getEndpointId s = .next { s with d := { s.d with mgmt :=
      { s.d.mgmt with resp := [x], tries := 0, out := s.d.mgmt.out ++ [x] } } }) ∧
    (∀ x : Bytes, [0, 0, 3, 0] ++ padTo 16 Config.uuid = x → exec .getEndpointUuid s = .next { s with d := { s.d with mgmt :=
      { s.d.mgmt with resp := [x], tries := 0, out := s.d.mgmt.out ++ [x] } } }) ∧
    (∀ (t : Byte) (x : Bytes), (if t = 0xFF ∨ t = 0 ∨ t = 0x7F then [0, 0, 4, 0, 1] ++ leBytes 4 (Config.mctpVersion t).toNat
        else [0, 0, 4, 0x80]) = x →
      exec (.getMctpVersionSupport t) s = .next { s with d := { s.d with mgmt :=
        { s.d.mgmt with resp := [x], tries := 0, out := s.d.mgmt.out ++ [x] } } }) ∧
    (∀ x : Bytes, [0, 0, 5, 0, 1, 0x7F] = x → exec .getMessageTypeSupport s = .next { s with d := { s.d with mgmt :=
      { s.d.mgmt with resp := [x], tries := 0, out := s.d.mgmt.out ++ [x] } } }) ∧
    (∀ x : Bytes, [0, 0, 6, 0, 0xFF, 0x01, 0x00, 0x01, 0x2F, 0x8B] ++ beBytes 2 Config.commandSet.toNat = x →
      exec (.getVendorMessageSupport 0) s = .next { s with d := { s.d with mgmt :=
        { s.d.mgmt with resp := [x], tries := 0, out := s.d.mgmt.out ++ [x] } } }) ∧
    exec .smbusTimeout s = .next { s with d := { s.d with mgmt := { s.d.mgmt with smbTo := wrap32 (s.d.mgmt.smbTo + 1) } } } ∧
    (s.d.mgmt.resp ≠ [] → s.d.mgmt.tries < 3 → exec .responseRetry s = .next { s with d := { s.d with mgmt := { s.d.mgmt with
      tries := s.d.mgmt.tries + 1, out := s.d.mgmt.out ++ s.d.mgmt.resp } } }) ∧
    (3 ≤ s.d.mgmt.tries → exec .responseRetry s = .next { s with d := { s.d with mgmt := { s.d.mgmt with resp := [], tries := 0 } } }) ∧
    (s.d.evr.alerting ≠ [] → s.d.mgmt.addr < 128 → ∃ d b, exec .alertResponse s = .next { s with d := d } ∧ b.toNat / 2 = s.d.mgmt.addr ∧
      d.mgmt = { s.d.mgmt with out := s.d.mgmt.out ++ [[b, pec [0x19, b]]] } ∧ s.d.SameBut [.mgmt, .free] d) ∧
    (s.d.evr.alerting = [] → exec .alertResponse s = .next s)) ∧
  (∀ s : State, s.d.reachable = false → exec .getEndpointId s = .next s ∧ exec .status s = .next s ∧ exec .smbusTimeout s = .next s ∧
    exec .responseRetry s = .next s ∧ (∀ p, exec (.mctpPacket p) s = .next s))

/-- R561, R562, R638, R639. A message ends in `x`: its response body is the last one handed to the bus.
The model's choices in it, which no rule of the spec states: the order of the checks of recovery commands (log 87), erase and install (log
88), SECREQ (log 89). -/
def Obligations.RegisterAndRecoveryMessages : Prop :=
  (∀ (s : State) (off n : Nat), s.d.reachable = true → regSpan off n = true →
    ∃ t x, exec (.mctpRead off n) s = .next t ∧ t.nv = s.nv ∧ t.pending = s.pending ∧
      x = vendorHead ++ [1, 1, 0] ++ (s.readRegs .smbus off n).1.flatMap (fun w => leBytes 4 w.toNat) ∧ t.d.mgmt.resp = [x] ∧
      t.d.mgmt.out = (s.readRegs .smbus off n).2.d.mgmt.out ++ [x]) ∧
  (∀ (s : State) (off n : Nat), s.d.reachable = true → off < 65536 → n < 256 → regSpan off n = false →
    exec (.mctpRead off n) s = .next { s with d := { s.d with mgmt := { s.d.mgmt with
      resp := [vendorHead ++ [1, 1, 1]], tries := 0, out := s.d.mgmt.out ++ [vendorHead ++ [1, 1, 1]] } } }) ∧
  (∀ (s : State) (off n : Nat) (data : Bytes), s.d.reachable = true →
    (s.d.mgmt.secReq = false → regSpan off n = true → data.length = 4 * n →
      exec (.mctpWrite off n data) s = .next { s with d := { s.d with
        sys := { s.d.sys with posted := s.d.sys.posted ++ (List.range n).map fun i =>
          { path := .smbus, off := off + 4 * i, val := BitVec.ofNat 32 (le data (4 * i) 4) } }
        mgmt := { s.d.mgmt with resp := [vendorHead ++ [1, 2, 0]], tries := 0, out := s.d.mgmt.out ++ [vendorHead ++ [1, 2, 0]] } } }) ∧
    (s.d.mgmt.secReq = true →
      exec (.mctpWrite off n data) s = .next { s with d := { s.d with mgmt := { s.d.mgmt with
        resp := [vendorHead ++ [1, 2, 2]], tries := 0, out := s.d.mgmt.out ++ [vendorHead ++ [1, 2, 2]] } } })) ∧
  (∀ s : State, s.d.reachable = true → ∀ x, vendorHead ++ [2, 1, 0] ++ s.statusData = x →
    exec .status s = .next { s with d := { s.d with mgmt := { s.d.mgmt with resp := [x], tries := 0, out := s.d.mgmt.out ++ [x] } } }) ∧
  (∀ (s : State) (a base size : Nat), s.d.reachable = true → areaOf a = some (base, size) →
    (a = 2 ∨ s.d.pwr.cur = 2 → s.d.mgmt.areaBusy = none →
      exec (.areaErase a) s = .next { s with d := { s.d with mgmt := { s.d.mgmt with
        verified := s.d.mgmt.verified.filter (· != a), areaBusy := some a
        resp := [vendorHead ++ [2, 2, 0]], tries := 0, out := s.d.mgmt.out ++ [vendorHead ++ [2, 2, 0]] } } }) ∧
    (∀ c : Byte, (if a ≠ 2 ∧ s.d.pwr.cur ≠ 2 then 5 else 3) = c → (a ≠ 2 ∧ s.d.pwr.cur ≠ 2) ∨ s.d.mgmt.areaBusy.isSome = true →
      exec (.areaErase a) s = .next { s with d := { s.d with mgmt := { s.d.mgmt with
        resp := [vendorHead ++ [2, 2, c]], tries := 0, out := s.d.mgmt.out ++ [vendorHead ++ [2, 2, c]] } } })) ∧
  (∀ (s : State) (a base size : Nat), s.Wf → s.d.mgmt.areaBusy = some a → areaOf a = some (base, size) →
    ∃ t, exec .areaEraseComplete s = .next t ∧ t.Wf ∧ t.d = { s.d with mgmt := { s.d.mgmt with areaBusy := none } } ∧ t.pending = s.pending ∧
      t.nv.fuses = s.nv.fuses ∧
      ∀ k, flashByte k t.nv.flash = if base ≤ k ∧ k < base + size then 0xFF else flashByte k s.nv.flash) ∧
  (∀ (s : State) (a off base size : Nat) (data : Bytes), s.d.reachable = true → areaOf a = some (base, size) → off % 4 = 0 → off < 2 ^ 32 →
    4 ≤ data.length → data.length ≤ 256 → data.length % 4 = 0 → off + data.length ≤ size → a = 2 ∨ s.d.pwr.cur = 2 →
    s.d.mgmt.areaBusy = none →
    (s.nv.blank (base + off) data.length = true →
      exec (.areaWrite a off data) s = .next { s with nv := s.nv.write (base + off) data, d := { s.d with mgmt := { s.d.mgmt with
        verified := s.d.mgmt.verified.filter (· != a)
        resp := [vendorHead ++ [2, 3, 0]], tries := 0, out := s.d.mgmt.out ++ [vendorHead ++ [2, 3, 0]] } } }) ∧
    (s.nv.blank (base + off) data.length = false →
      exec (.areaWrite a off data) s = .next { s with d := { s.d with mgmt := { s.d.mgmt with
        resp := [vendorHead ++ [2, 3, 2]], tries := 0, out := s.d.mgmt.out ++ [vendorHead ++ [2, 3, 2]] } } })) ∧
  (∀ (s : State) (k : Nat), s.d.reachable = true → k ≤ 1 →
    (s.d.pwr.cur = 2 → s.d.mgmt.areaBusy = none → ∀ x, vendorHead ++ [2, 4, 0, BitVec.ofNat 8 (s.nv.verify k)] = x →
      exec (.slotVerify k) s = .next { s with d := { s.d with mgmt := { s.d.mgmt with
        verified := if s.nv.verify k = 0 then k :: s.d.mgmt.verified.filter (· != k) else s.d.mgmt.verified.filter (· != k)
        resp := [x], tries := 0, out := s.d.mgmt.out ++ [x] } } }) ∧
    (s.d.pwr.cur ≠ 2 → exec (.slotVerify k) s = .next { s with d := { s.d with mgmt := { s.d.mgmt with
      resp := [vendorHead ++ [2, 4, 5]], tries := 0, out := s.d.mgmt.out ++ [vendorHead ++ [2, 4, 5]] } } }) ∧
    (s.d.pwr.cur = 2 → s.d.mgmt.areaBusy = none → k ∈ s.d.mgmt.verified →
      exec (.slotInstall k) s = .next { s with
        nv := s.nv.writeBoot { slot := k, trial := false, recovered := true, gen := 0, trials := 0, prevSlot := 1 - k
                               rev := s.nv.slotRev k, prevRev := s.nv.slotRev (1 - k), actLife := 0 }
        d := { s.d with mgmt := { s.d.mgmt with
          resp := [vendorHead ++ [2, 5, 0]], tries := 0, out := s.d.mgmt.out ++ [vendorHead ++ [2, 5, 0]] } } }) ∧
    (s.d.pwr.cur = 2 → s.d.mgmt.areaBusy = none → k ∉ s.d.mgmt.verified →
      exec (.slotInstall k) s = .next { s with d := { s.d with mgmt := { s.d.mgmt with
        resp := [vendorHead ++ [2, 5, 4]], tries := 0, out := s.d.mgmt.out ++ [vendorHead ++ [2, 5, 4]] } } }))

/-- R638-R640. Every row of the class completes: where the management island runs it answers, where it is off nothing happens.
The model's choices in it, which no rule of the spec states: the HMAC's place among the request bytes and the challenge's life (log 90), the
sealed plaintext and the payload of the response (log 91), the standards (log 10), a sealed message of another class (log 93). -/
def Obligations.SealedSession : Prop :=
  (∀ (s : State) (b : Bytes), s.d.reachable = true → s.d.sessionsUp = true → (s.d.draw 34).1 = b →
    exec .sessionChallenge s = .next (({ s with d := { (s.d.draw 34).2 with mgmt := { s.d.mgmt with session := { s.d.mgmt.session with
      isOpen := false, id := leNat (b.take 2), tenant := 0, key := [], counter := 0, challenge := some (b.drop 2) } } } } : State).replied
        (vendorHead ++ [3, 1, 0] ++ b))) ∧
  (∀ (s : State) (q ch : Bytes) (t : Tenant), s.d.reachable = true → s.d.sessionsUp = true → s.d.mgmt.session.challenge = some ch →
    s.d.kvx.store.tenant? (le q 0 4) = some t →
    (q.length = 134 ∧ le q 4 2 = s.d.mgmt.session.id ∧ t.admin = true ∧ onCurve (beNat (slice q 6 48)) (beNat (slice q 54 48)) = true ∧
        hmacSha256 t.key (ch ++ q.take 102) = slice q 102 32 →
      exec (.sessionOpen q) s = .next (({ s with d := { s.d with mgmt := { s.d.mgmt with session := { s.d.mgmt.session with
        isOpen := true, tenant := t.id, key := sessionKeys ch (ecdhX driveScalar (beNat (slice q 6 48)) (beNat (slice q 54 48)))
        counter := 0, challenge := none, last := s.d.clk.life } } } } : State).replied (vendorHead ++ [3, 2, 0]))) ∧
    (q.length ≠ 134 ∨ le q 4 2 ≠ s.d.mgmt.session.id ∨ t.admin = false ∨ onCurve (beNat (slice q 6 48)) (beNat (slice q 54 48)) = false ∨
        hmacSha256 t.key (ch ++ q.take 102) ≠ slice q 102 32 →
      exec (.sessionOpen q) s = .next (s.replied (vendorHead ++ [3, 2, 3])))) ∧
  (∀ (s : State) (q : Bytes), s.d.reachable = true → s.d.sessionsUp = true →
    s.d.mgmt.session.challenge = none ∨ s.d.kvx.store.tenant? (le q 0 4) = none →
    exec (.sessionOpen q) s = .next (s.replied (vendorHead ++ [3, 2, 3]))) ∧
  (∀ (s s' : State) (q m : Bytes), s.d.reachable = true → s.d.sessionsUp = true → s.d.mgmt.session.isOpen = true → 26 ≤ q.length →
    le q 0 2 = s.d.mgmt.session.id → s.d.mgmt.session.counter < le q 2 8 →
    gcmOpen (s.d.mgmt.session.key.take 32) (leBytes 8 (le q 2 8) ++ leBytes 4 0) (vendorHead ++ [3, 3] ++ q.take 10) (q.drop 10) = some m →
    s' = { s with d := { s.d with mgmt := { s.d.mgmt with session := { s.d.mgmt.session with counter := le q 2 8, last := s.d.clk.life } } } } →
    (∀ b t, s'.plainMsg true m = (some b, t) →
      exec (.sessionSealed q) s = .next (t.replied (vendorHead ++ [3, 3, 0] ++ q.take 10 ++
        gcmSeal (s.d.mgmt.session.key.drop 32) (leBytes 8 (le q 2 8) ++ leBytes 4 0) (vendorHead ++ [3, 3, 0] ++ q.take 10) b))) ∧
    (byteAt m 0 ≠ 1 → byteAt m 0 ≠ 2 → exec (.sessionSealed q) s = .next { s' with d := { s'.d with mgmt := { s'.d.mgmt with
      mDrop := wrap32 (s.d.mgmt.mDrop + 1) } } })) ∧
  (∀ (s : State) (m : Bytes), byteAt m 0 = 1 ∨ byteAt m 0 = 2 → 1 < m.length →
    (∃ b t, s.plainMsg true m = (some b, t)) ∧
    (s.d.mgmt.secReq = false → s.message (vendorHead ++ m) = ((s.plainMsg true m).1.map (vendorHead ++ ·), (s.plainMsg true m).2)) ∧
    ∀ off n data, m = [1, 2] ++ leBytes 2 off ++ leBytes 1 n ++ data → regSpan off n = true → data.length = 4 * n →
      s.plainMsg true m = (some [1, 2, 0], { s with d := { s.d with sys := { s.d.sys with posted := s.d.sys.posted ++ (List.range n).map fun i =>
        { path := .smbus, off := off + 4 * i, val := BitVec.ofNat 32 (le data (4 * i) 4) } } } })) ∧
  (∀ (s : State) (q : Bytes), s.d.reachable = true → s.d.sessionsUp = true →
    (s.d.mgmt.session.isOpen = false ∨ q.length < 26 ∨ le q 0 2 ≠ s.d.mgmt.session.id ∨ le q 2 8 ≤ s.d.mgmt.session.counter ∨
      gcmOpen (s.d.mgmt.session.key.take 32) (leBytes 8 (le q 2 8) ++ leBytes 4 0) (vendorHead ++ [3, 3] ++ q.take 10) (q.drop 10) = none) →
    exec (.sessionSealed q) s = .next (s.replied (vendorHead ++ [3, 3, 3]))) ∧
  (∀ (s : State) (id : BitVec 16), s.d.reachable = true → s.d.sessionsUp = true →
    (s.d.mgmt.session.isOpen = true → s.d.mgmt.session.id = id.toNat →
      exec (.sessionClose id) s = .next (({ s with d := { s.d with mgmt := { s.d.mgmt with session := { s.d.mgmt.session with
        isOpen := false, tenant := 0, key := [], counter := 0, challenge := none } } } } : State).replied (vendorHead ++ [3, 4, 0]))) ∧
    (s.d.mgmt.session.isOpen = false ∨ s.d.mgmt.session.id ≠ id.toNat →
      exec (.sessionClose id) s = .next (s.replied (vendorHead ++ [3, 4, 3])))) ∧
  (∀ (s : State) (q : Bytes) (id : BitVec 16), s.d.reachable = true → s.d.sessionsUp = false →
    exec .sessionChallenge s = .next (s.replied (vendorHead ++ [3, 1, 4])) ∧ exec (.sessionOpen q) s = .next (s.replied (vendorHead ++ [3, 2, 4])) ∧
    exec (.sessionSealed q) s = .next (s.replied (vendorHead ++ [3, 3, 4])) ∧
    exec (.sessionClose id) s = .next (s.replied (vendorHead ++ [3, 4, 4]))) ∧
  (∀ (s : State) (q : Bytes) (id : BitVec 16), s.d.reachable = false → exec .sessionChallenge s = .next s ∧ exec (.sessionOpen q) s = .next s ∧
    exec (.sessionSealed q) s = .next s ∧ exec (.sessionClose id) s = .next s) ∧
  (∀ s : State,
    (s.d.mgmt.session.isOpen = true → s.d.mgmt.session.last + 60000000000 ≤ s.d.clk.life →
      exec .sessionTimeout s = .next { s with d := { s.d with mgmt := { s.d.mgmt with session := { s.d.mgmt.session with
        isOpen := false, tenant := 0, key := [], counter := 0, challenge := none } } } }) ∧
    (s.d.mgmt.session.isOpen = false ∨ s.d.clk.life < s.d.mgmt.session.last + 60000000000 → exec .sessionTimeout s = .next s))

/-- R29, R57, R58, R142, R143, R152-R161, R220, R406. The command's data is in host memory `m`; `s'` is the state just before its turn. R370, R394, R395.
The model's choices in it, which no rule of the spec states: what is staged and charged (log 34), the pacing bucket (log 35), the place of a
record (log 36), the serials of the drive's own commits (log 33), the order of checks (log 13 to 16). -/
def Obligations.WritesCommit : Prop :=
  (∀ (q : Nat) (e : Sqe) (m : HostMem) (s s' : State) (c : Ctx), c.ops = none → s'.d.writeOpen c = true → s'.d.writeRoom c = true →
    (s.atTurn q 0x02 e m = some (c, s') → ∃ t, exec (.put q e m) s = .next t ∧ s'.Stored c (c.value 0) t) ∧
    (s.atTurn q 0x07 e m = some (c, s') → ∃ t, exec (.cas q e m) s = .next t ∧ s'.Stored c (c.value 0) t) ∧
    (s.atTurn q 0x06 e m = some (c, s') → ∃ t, exec (.append q e m) s = .next t ∧
      s'.Stored c (((s'.held c).map (·.value)).getD [] ++ c.value 0) t) ∧
    (s.atTurn q 0x03 e m = some (c, s') → ∃ t r, exec (.delete q e m) s = .next t ∧ s'.held c = some r ∧ t.held c = none ∧
      (∀ ks key, (ks, key) ≠ (c.e.ksId, c.key.getD []) → t.d.kvx.store.get? ks key = s'.d.kvx.store.get? ks key) ∧
      (∀ k, s'.d.kvx.store.ks? c.e.ksId = some k → ∃ k', t.d.kvx.store.ks? c.e.ksId = some k' ∧ k'.hwm = max k.hwm r.version) ∧
      (∃ x ∈ t.d.kvx.log, x.serial = s'.d.kvx.turnSer + 1 ∧ x.sq = c.sq ∧ x.ord = c.ord) ∧
      t.d.answers c (versionRes stSuccess r.version s'.d.clk.wallTime r.value.length) ∧
      s'.SameBut ([.bank, .free] ++ settleParts) t)) ∧
  (∀ (q : Nat) (e : Sqe) (m : HostMem) (s s' : State) (c : Ctx) (k : KeySpace), c.ops = none → s'.d.writeOpen c = true →
    s'.d.kvx.store.ks? c.e.ksId = some k →
    (s.atTurn q 0x02 e m = some (c, s') →
      ((s'.held c).isSome = true → k.vclass = .anchored ∨ c.e.flag 4 = true →
        ∃ t, exec (.put q e m) s = .next t ∧ s'.EndsWith c 0x1002 t) ∧
      (s'.held c = none → c.e.flag 5 = true ∨ c.e.flag 6 = true → ∃ t, exec (.put q e m) s = .next t ∧ s'.EndsWith c 0x1001 t)) ∧
    (s.atTurn q 0x07 e m = some (c, s') → ((s'.held c).map (·.version)).getD 0 ≠ c.e.operand.toNat →
      ∃ t, exec (.cas q e m) s = .next t ∧ s'.EndsWith c 0x1003 t) ∧
    (s.atTurn q 0x06 e m = some (c, s') → s'.held c = none → c.e.flag 4 = false ∨ c.e.flag 6 = true →
      ∃ t, exec (.append q e m) s = .next t ∧ s'.EndsWith c 0x1001 t) ∧
    (s.atTurn q 0x03 e m = some (c, s') →
      (s'.held c = none → ∃ t, exec (.delete q e m) s = .next t ∧ s'.EndsWith c 0x1001 t) ∧
      (∀ r, s'.held c = some r → c.e.flag 6 = true → r.version ≠ c.e.operand.toNat →
        ∃ t, exec (.delete q e m) s = .next t ∧ s'.EndsWith c 0x1003 t))) ∧
  (∀ (q o : Nat) (l : List (Nat × Nat)) (s : State) (c : Ctx), s.d.ctx? q o = some c → s.d.canTurn c = true → c.ops = none →
    s.d.writeOpen c = true → s.d.writeRoom c = true → c.op = 0x02 ∨ c.op = 0x07 ∨ c.op = 0x06 →
    (s.d.kvx.admq = (q, o) :: l → ∃ t, exec .admission s = .next t ∧
      s.Stored c ((if c.op = 0x06 then ((s.held c).map (·.value)).getD [] else []) ++ c.value 0) t) ∧
    (s.d.med.paced = (q, o) :: l → ∃ t, exec .pacedAdmission s = .next t ∧
      s.Stored c ((if c.op = 0x06 then ((s.held c).map (·.value)).getD [] else []) ++ c.value 0) t)) ∧
  (∀ s : State, (s.d.kvx.admq = [] → exec .admission s = .next s) ∧ (s.d.med.paced = [] → exec .pacedAdmission s = .next s)) ∧
  (∀ (q tag : Nat) (s : State) (c : Ctx), s.turnIs q tag 0x02 c → c.ops = none → s.d.writeOpen c = true → s.d.writeRoom c = true →
    ∃ t, exec (.turn q tag) s = .next t ∧ s.Stored c (c.value 0) t)

/-- R29, R178, R182-R184, R220.
The model's choices in it, which no rule of the spec states: what is staged and charged (log 34), the place of a record (log 36), the order
of checks (log 13). -/
def Obligations.BatchAtomic : Prop :=
  ∀ (q : Nat) (e : Sqe) (m : HostMem) (s s' : State) (c : Ctx) (os : List BatchOp), s.atTurn q 0x10 e m = some (c, s') → c.ops = some os →
    s'.d.writeOpen c = true →
    (∀ x s2 effs rs n, evalOps (s'.d.kvx.turnSer + 1) s'.d.clk.wallTime x 0 s'.d.kvx.store = .ok (s2, effs, rs, n) →
      x = ((s'.d.lookups (s'.d.writeOps c)).placed c).1 → s'.d.writeRoom c = true →
      ∃ t, exec (.batch q e m) s = .next t ∧ (∀ ks key, t.d.kvx.store.get? ks key = s2.get? ks key) ∧
        t.d.answers c { b := leBytes 2 os.length ++ fill 6 0 ++ leBytes 8 s'.d.clk.wallTime, len := n } ∧
        (∃ r ∈ t.d.kvx.log, r.serial = s'.d.kvx.turnSer + 1 ∧ r.sq = c.sq ∧ r.ord = c.ord ∧ r.effs = effs) ∧
        s'.SameBut ([.bank, .free] ++ settleParts) t) ∧
    (∀ x i r, evalOps (s'.d.kvx.turnSer + 1) s'.d.clk.wallTime x 0 s'.d.kvx.store = .error (i, r) →
      x = ((s'.d.lookups (s'.d.writeOps c)).placed c).1 →
      ∃ t y, exec (.batch q e m) s = .next t ∧ s'.EndsWith c r.status t ∧ t.d.ctx? c.sq c.ord = some y ∧ y.res.len = i)

/-- R57, R65, R66, R143, R146, R150, R151, R157, R158, R162, R221. Reads of the current version; PARTIAL is opcode flag 5.
The model's choices in it, which no rule of the spec states: LENGTH_SHORT at stage 8 (log 15), reads without cores (log 23), IDLE left for
reads that need flash (log 42), plaintext with usable keys (log 9). -/
def Obligations.KeyedReads : Prop :=
  (∀ (q : Nat) (e : Sqe) (m : HostMem) (s s' : State) (c : Ctx) (k : KeySpace) (r : Rec), snapOp c.op c.e = false →
    s'.d.indexLost c.e.ksId (c.key.getD []) = none → s'.d.kvx.store.ks? c.e.ksId = some k → s'.held c = some r →
    s'.d.cry.aesFence ≠ 0xFFFF →
    (s.atTurn q 0x01 e m = some (c, s') →
      (r.value.length ≤ c.e.vlen ∨ c.e.flag 5 = true → r.value.take c.e.vlen ≠ [] ∨ c.e.flag 6 = true →
        ∃ t, exec (.get q e m) s = .next t ∧
          s'.Returns c (s'.d.kvx.store.report stSuccess r (k.vclass == .anchored)) (r.value.take c.e.vlen) t ∧
          ((s'.d.conn? c.conn).isSome = true → (q, c.ord) ∉ s'.d.csc.find → r.value.length ≤ 65536 →
            t.d.Sends c (r.value.take c.e.vlen) ∧
            (c.e.flag 6 = true → t.d.Wrote c (descAddr (padTo 16 c.e.cmd)) (descRkey (padTo 16 c.e.cmd)) (r.digest.getD (fill 32 0))))) ∧
      (c.e.vlen < r.value.length → c.e.flag 5 = false → ∃ t, exec (.get q e m) s = .next t ∧ s'.EndsWith c 0x6002 t)) ∧
    (s.atTurn q 0x04 e m = some (c, s') → ∃ t, exec (.existsKey q e m) s = .next t ∧
      s'.Answers c (s'.d.kvx.store.report stSuccess r (k.vclass == .anchored)) [] t) ∧
    (s.atTurn q 0x05 e m = some (c, s') →
      (c.e.c 0x70 4 < r.value.length → c.e.vlen ≠ 0 → ∃ t b, exec (.getrange q e m) s = .next t ∧
        b = (r.value.drop (c.e.c 0x70 4)).take c.e.vlen ∧ s'.Returns c (versionRes stSuccess r.version r.wtime b.length) b t ∧
        ((s'.d.conn? c.conn).isSome = true → (q, c.ord) ∉ s'.d.csc.find → c.e.c 0x70 4 % 65536 + b.length ≤ 65536 → t.d.Sends c b)) ∧
      (r.value.length ≤ c.e.c 0x70 4 → ∃ t, exec (.getrange q e m) s = .next t ∧ s'.EndsWith c 0x1004 t))) ∧
  (∀ (q : Nat) (e : Sqe) (m : HostMem) (s s' : State) (c : Ctx), snapOp c.op c.e = false →
    s'.d.indexLost c.e.ksId (c.key.getD []) = none → s'.held c = none →
    (s.atTurn q 0x01 e m = some (c, s') → ∃ t, exec (.get q e m) s = .next t ∧ s'.EndsWith c 0x1001 t) ∧
    (s.atTurn q 0x04 e m = some (c, s') → ∃ t, exec (.existsKey q e m) s = .next t ∧ s'.EndsWith c 0x1001 t) ∧
    (s.atTurn q 0x05 e m = some (c, s') → ∃ t, exec (.getrange q e m) s = .next t ∧ s'.EndsWith c 0x1001 t)) ∧
  (∀ (q : Nat) (e : Sqe) (m : HostMem) (s s' : State) (c : Ctx), s.atTurn q 0x08 e m = some (c, s') → s'.d.cry.aesFence ≠ 0xFFFF →
    (∀ r, s'.d.kvx.store.byToken? (padTo 16 c.e.cmd) = some r →
      (r.value.length ≤ c.e.vlen ∨ c.e.flag 5 = true → r.value.take c.e.vlen ≠ [] → ∃ t, exec (.tget q e m) s = .next t ∧
        s'.Returns c (versionRes stSuccess r.version r.wtime r.value.length) (r.value.take c.e.vlen) t ∧
        ((s'.d.conn? c.conn).isSome = true → (q, c.ord) ∉ s'.d.csc.find → r.value.length ≤ 65536 →
          t.d.Sends c (r.value.take c.e.vlen))) ∧
      (c.e.vlen < r.value.length → c.e.flag 5 = false → ∃ t, exec (.tget q e m) s = .next t ∧ s'.EndsWith c 0x6002 t)) ∧
    (s'.d.kvx.store.byToken? (padTo 16 c.e.cmd) = none → ∃ t, exec (.tget q e m) s = .next t ∧ s'.EndsWith c 0x3003 t))

/-- R187, R189, R191-R196, R221, R317. Keys without values (flag 7 clear), the current versions (no snapshot).
The model's choices in it, which no rule of the spec states: padding, MORE and groups (log 32), LENGTH_SHORT at stage 8 (log 15), ties and
slots (log 38). -/
def Obligations.SetReads : Prop :=
  (∀ (q : Nat) (e : Sqe) (m : HostMem) (s s' : State) (c : Ctx) (k : KeySpace) (l : List Rec), s'.d.kvx.store.ks? c.e.ksId = some k →
    k.index = .ordered → c.e.flag 4 = false → c.e.flag 7 = false →
    l = (sortLt (fun a b => bytesLt a.key b.key) (s'.d.kvx.store.recs.filter fun r => r.ks == k.id && r.cur)).filter (fun r =>
      (c.e.flag 5 || (if c.e.flag 6 then bytesLt (c.key.getD []) r.key else !bytesLt r.key (c.key.getD [])))
        && !bytesLt r.key (if c.op = 0x12 then fixedPrefix c.pat else [])) →
    l.length < 16777216 → (∀ p ∈ (s'.d.scan c k none).pages, s'.d.pageFault k.id p = none) →
    (s.atTurn q 0x11 e m = some (c, s') → l.length < c.e.c 0x70 4 → (l.flatMap fun r => scanEntry r false).length ≤ c.e.vlen →
      (l ≠ [] → ∃ t x, exec (.scan q e m) s = .next t ∧ t.d.ctx? c.sq c.ord = some x ∧ x.ran = true ∧
        x.data = (l.flatMap fun r => scanEntry r false) ∧
        x.res = { b := leBytes 4 l.length ++ leBytes 4 l.length ++ leBytes 8 0, len := (l.flatMap fun r => scanEntry r false).length } ∧
        ((s'.d.conn? c.conn).isSome = true → t.d.Sends c (l.flatMap fun r => scanEntry r false)) ∧
        s'.d.Kept t.d ∧ s'.SameBut settleParts t) ∧
      (l = [] → ∃ t, exec (.scan q e m) s = .next t ∧ s'.Answers c { b := leBytes 4 0 ++ leBytes 4 0 ++ leBytes 8 0 } [] t)) ∧
    (s.atTurn q 0x12 e m = some (c, s') → s'.d.idx.slots.length < 64 → (∀ r ∈ l, above (fixedPrefix c.pat) r.key = false) →
      ∀ h, h = l.filter (fun r => patternMatch c.pat r.key) → h.length < le c.pat 0x84 4 →
      (h.flatMap fun r => scanEntry r false).length ≤ c.e.vlen →
      (h ≠ [] → ∃ t x, exec (.search q e m) s = .next t ∧ t.d.ctx? c.sq c.ord = some x ∧ x.ran = true ∧
        x.data = (h.flatMap fun r => scanEntry r false) ∧
        x.res = { b := leBytes 4 h.length ++ leBytes 4 l.length ++ leBytes 8 0, len := (h.flatMap fun r => scanEntry r false).length } ∧
        ((s'.d.conn? c.conn).isSome = true → t.d.Sends c (h.flatMap fun r => scanEntry r false)) ∧
        s'.d.Kept t.d ∧ s'.SameBut settleParts t) ∧
      (h = [] → ∃ t, exec (.search q e m) s = .next t ∧
        s'.Answers c { b := leBytes 4 0 ++ leBytes 4 l.length ++ leBytes 8 0 } [] t))) ∧
  (∀ (q : Nat) (e : Sqe) (m : HostMem) (s s' : State) (c : Ctx), s.atTurn q 0x13 e m = some (c, s') →
    s'.d.indexLost c.e.ksId (c.key.getD []) = none → s'.d.cry.aesFence ≠ 0xFFFF →
    (s'.held c = none → s'.d.csc.en = false → ∃ t, exec (.find q e m) s = .next t ∧ s'.EndsWith c 0x1001 t) ∧
    (s'.held c = none → s'.d.csc.en = true → ∃ t, exec (.find q e m) s = .next t ∧ s'.Returns c (.failed stNotFound 10) c.data t ∧
      t.d.csc = { s'.d.csc with
        find := s'.d.csc.find ++ [(c.sq, c.ord)], headAt := if s'.d.csc.find = [] then s'.d.clk.life else s'.d.csc.headAt }) ∧
    (∀ k r, s'.d.kvx.store.ks? c.e.ksId = some k → s'.held c = some r → r.value.length ≤ c.e.vlen ∨ c.e.flag 5 = true →
      (s'.d.csc.en = false → r.value.take c.e.vlen ≠ [] → ∃ t, exec (.find q e m) s = .next t ∧
        s'.Returns c (s'.d.kvx.store.report stSuccess r (k.vclass == .anchored)) (r.value.take c.e.vlen) t) ∧
      (s'.d.csc.en = true → ∃ t, exec (.find q e m) s = .next t ∧
        s'.Returns c (s'.d.kvx.store.report stSuccess r (k.vclass == .anchored)) (r.value.take c.e.vlen) t ∧
        t.d.csc = { s'.d.csc with
          find := s'.d.csc.find ++ [(c.sq, c.ord)], headAt := if s'.d.csc.find = [] then s'.d.clk.life else s'.d.csc.headAt })))

/-- R69, R201, R206, R208-R213, R240.
The model's choices in it, which no rule of the spec states: coverage of a FLUSH (log 30), checks drained before a watch ends (log 31),
lowest IDs (log 38). -/
def Obligations.WatchesSnapshotsFlush : Prop :=
  (∀ (q : Nat) (e : Sqe) (m : HostMem) (s s' : State) (c : Ctx) (id : Nat), s.atTurn q 0x14 e m = some (c, s') →
    lowestFree 1024 (s'.d.kvx.watches.map (·.id)) = some id → s'.d.isClosing c.conn = false →
    ∃ t, exec (.watch q e m) s = .next t ∧ t.d.answers c { b := leBytes 2 id } ∧
      t.d.kvx.watches = insertBy (·.id) { id := id, since := s'.d.kvx.turnSer, conn := c.conn, tenant := c.tenant, ks := c.e.ksId
                                          pat := c.pat, ring := c.out, slots := c.e.vlen / 1040, seq := 0, ord := c.ord } s'.d.kvx.watches ∧
      t.d.kvx.store = s'.d.kvx.store ∧ t.d.kvx.turnSer = s'.d.kvx.turnSer ∧ s'.SameBut settleParts t) ∧
  (∀ (q tag : Nat) (s : State) (c : Ctx) (id : Nat), s.turnIs q tag 0x14 c → lowestFree 1024 (s.d.kvx.watches.map (·.id)) = some id →
    s.d.isClosing c.conn = true → ∃ t, exec (.turn q tag) s = .next t ∧ s.Answers c { b := leBytes 2 id } [] t) ∧
  (∀ (q : Nat) (e : Sqe) (m : HostMem) (s s' : State) (c : Ctx), s.atTurn q 0x15 e m = some (c, s') →
    (∃ w ∈ s'.d.kvx.watches, w.id = c.e.c 0x70 2 ∧ w.conn = c.conn) → s'.d.kvx.checks = [] →
      ∃ t, exec (.unwatch q e m) s = .next t ∧ t.d.answers c {} ∧
        t.d.kvx.watches = s'.d.kvx.watches.filter (fun w => w.id != c.e.c 0x70 2) ∧ t.d.kvx.store = s'.d.kvx.store ∧
        (∀ n, t.d.events n = s'.d.events n) ∧ s'.SameBut settleParts t) ∧
  (∀ (q tag : Nat) (s : State) (c : Ctx), s.turnIs q tag 0x15 c →
    (∀ w ∈ s.d.kvx.watches, ¬ (w.id = c.e.c 0x70 2 ∧ w.conn = c.conn)) →
    ∃ t, exec (.turn q tag) s = .next t ∧ s.Answers c (.badField 10 0x70) [] t) ∧
  (∀ (q : Nat) (e : Sqe) (m : HostMem) (s s' : State) (c : Ctx) (kss : List Nat) (slot : Nat), s.atTurn q 0x16 e m = some (c, s') →
    s'.d.adminFault c = none → kss = (if c.e.flag 4 then s'.d.kvx.store.readable c.tenant else [c.e.ksId]) → kss ≠ [] →
    (∀ k ∈ kss, (s'.d.kvx.store.ks? k).isSome = true) →
    (lowestFree 256 (s'.d.kvx.store.snaps.map (·.slot)) = some slot → s'.d.ledger c 128 ≠ .wait →
      ∃ t, exec (.snapshot q e m) s = .next t ∧
        s'.Commits c [.snapOpen { slot := slot, gen := s'.d.kvx.store.snapGen + 1, tenant := c.tenant, kss := kss
                                  horizon := s'.d.kvx.turnSer + 1 }]
          { b := leBytes 8 (slot + 256 * (s'.d.kvx.store.snapGen + 1)) ++ leBytes 8 s'.d.clk.wallTime, len := kss.length } t) ∧
    (lowestFree 256 (s'.d.kvx.store.snaps.map (·.slot)) = none →
      ∃ t, exec (.snapshot q e m) s = .next t ∧ s'.EndsWith c 0x4003 t)) ∧
  (∀ (q : Nat) (e : Sqe) (m : HostMem) (s s' : State) (c : Ctx), s.atTurn q 0x17 e m = some (c, s') → s'.d.sanitizeFault 0x17 10 = none →
    (∀ n, s'.d.kvx.store.snap? c.e.operand.toNat = some n → s'.d.ledger c 128 ≠ .wait →
      ∃ t, exec (.snapclose q e m) s = .next t ∧ s'.Commits c [.snapClose n.slot] {} t ∧
        ∀ x ∈ t.d.kvx.store.snaps, x.slot ≠ n.slot) ∧
    (s'.d.kvx.store.snap? c.e.operand.toNat = none → ∃ t, exec (.snapclose q e m) s = .next t ∧ s'.EndsWith c 0x3002 t)) ∧
  (∀ (q : Nat) (e : Sqe) (m : HostMem) (s s' : State) (c : Ctx),
    (s.atTurn q 0x18 e m = some (c, s') →
      (s'.d.flushReady c = true → ∃ t, exec (.flush q e m) s = .next t ∧ s'.Answers c { b := leBytes 8 c.counted } [] t) ∧
      (s'.d.flushReady c = false → ∃ t x, exec (.flush q e m) s = .next t ∧ t.d.ctx? c.sq c.ord = some x ∧ x.settled = false)) ∧
    (s.atTurn q 0x19 e m = some (c, s') →
      (s'.d.barrierReady c = true → ∃ t, exec (.barrier q e m) s = .next t ∧ s'.Answers c {} [] t) ∧
      (s'.d.barrierReady c = false → ∃ t x, exec (.barrier q e m) s = .next t ∧ t.d.ctx? c.sq c.ord = some x ∧ x.settled = false)))

/-- R45, R48, R50-R52, R74, R79, R165. The descriptor is the command's value.
The model's choices in it, which no rule of the spec states: descriptor before slot (log 20), KSDELETE at its turn (log 21), the creator's
entry (log 45), stage 10 (log 17). -/
def Obligations.KeySpaceCommands : Prop :=
  (∀ (q : Nat) (e : Sqe) (m : HostMem) (s s' : State) (c : Ctx) (k : KeySpace) (n : Nat) (key : Bytes),
    s.atTurn q 0x40 e m = some (c, s') → s'.d.adminFault c = none → parseDescriptor c.e.ksId true (c.value 0) = some (k, n) →
    s'.d.kvx.store.slotKey k.slot = some key →
    (s'.d.kvx.store.ks? k.id = none → s'.d.kvx.store.created < 0xFFFFFFFF → s'.d.ledger c 128 ≠ .wait →
      ∃ t, exec (.kscreate q e m) s = .next t ∧
        s'.Commits c [.ksCreate { k with acl := withCreator c.tenant k.acl, serial := s'.d.kvx.store.created + 1
                                         mediaKey := some (s'.d.draw (mediaKeyLen s'.d.cry.xts128)).1
                                         wrapped := keyWrap key (s'.d.draw (mediaKeyLen s'.d.cry.xts128)).1
                                         xts128 := s'.d.cry.xts128 }] { b := leBytes 4 (s'.d.kvx.store.created + 1) } t ∧
        t.d.events 0x098 = wrap32 (s'.d.events 0x098 + 1)) ∧
    ((s'.d.kvx.store.ks? k.id).isSome = true → ∃ t, exec (.kscreate q e m) s = .next t ∧ s'.EndsWith c 0x1002 t)) ∧
  (∀ (q : Nat) (e : Sqe) (m : HostMem) (s s' : State) (c : Ctx) (k : KeySpace), s.atTurn q 0x41 e m = some (c, s') →
    s'.d.adminFault c = none → s'.d.kvx.store.ks? c.e.ksId = some k → c.ran = false → c.e.ksId ∉ s'.d.kvx.deleting →
    (s'.d.kvx.store.covered c.e.ksId = false → s'.d.enteredOn c = [] → s'.d.ledger c 128 ≠ .wait →
      ∃ t, exec (.ksdelete q e m) s = .next t ∧ s'.Commits c [.ksDelete c.e.ksId] {} t ∧ c.e.ksId ∉ t.d.kvx.deleting ∧
        (∀ w ∈ t.d.kvx.watches, w.ks ≠ c.e.ksId) ∧ t.d.events 0x098 = wrap32 (s'.d.events 0x098 + 1)) ∧
    (s'.d.kvx.store.covered c.e.ksId = false → s'.d.enteredOn c ≠ [] →
      ∃ t x, exec (.ksdelete q e m) s = .next t ∧ c.e.ksId ∈ t.d.kvx.deleting ∧ t.d.ctx? c.sq c.ord = some x ∧ x.settled = false ∧
        t.d.kvx.store = s'.d.kvx.store)) ∧
  (∀ (q tag : Nat) (s : State) (c : Ctx), s.turnIs q tag 0x41 c → s.d.adminFault c = none → (s.d.kvx.store.ks? c.e.ksId).isSome = true →
    (c.ran = true ∨ c.e.ksId ∉ s.d.kvx.deleting → s.d.kvx.store.covered c.e.ksId = true →
      ∃ t, exec (.turn q tag) s = .next t ∧ s.Answers c (.conflict 10 2 6) [] t ∧ c.e.ksId ∉ t.d.kvx.deleting) ∧
    (c.ran = true → s.d.kvx.store.covered c.e.ksId = false → s.d.ksBusy c.marks = false → s.d.ledger c 128 ≠ .wait →
      ∃ t, exec (.turn q tag) s = .next t ∧ s.Commits c [.ksDelete c.e.ksId] {} t ∧ c.e.ksId ∉ t.d.kvx.deleting)) ∧
  (∀ (q : Nat) (e : Sqe) (m : HostMem) (s s' : State) (c : Ctx) (new old : KeySpace) (mask : Nat),
    s.atTurn q 0x42 e m = some (c, s') → s'.d.adminFault c = none → parseDescriptor c.e.ksId false (c.value 0) = some (new, mask) →
    s'.d.kvx.store.ks? c.e.ksId = some old →
    (old.differs new = none → bit mask 0 = false ∨ (old.mediaKey.isSome = true ∧ (s'.d.kvx.store.slotKey new.slot).isSome = true) →
      s'.d.ledger c 128 ≠ .wait →
      ∃ t, exec (.ksmodify q e m) s = .next t ∧
        s'.Commits c [.ksModify (old.modified new mask ((s'.d.kvx.store.slotKey new.slot).getD []))] {} t ∧
        (old.modified new mask ((s'.d.kvx.store.slotKey new.slot).getD [])).index = old.index ∧
        (old.modified new mask ((s'.d.kvx.store.slotKey new.slot).getD [])).vclass = old.vclass ∧
        (old.modified new mask ((s'.d.kvx.store.slotKey new.slot).getD [])).retention = old.retention)) ∧
  (∀ (q tag : Nat) (s : State) (c : Ctx) (new old : KeySpace) (mask off : Nat), s.turnIs q tag 0x42 c → s.d.adminFault c = none →
    parseDescriptor c.e.ksId false (c.value 0) = some (new, mask) → s.d.kvx.store.ks? c.e.ksId = some old → old.differs new = some off →
    ∃ t, exec (.turn q tag) s = .next t ∧ s.Answers c (.conflict 10 3 off) [] t)

/-- R102-R107, R123, R273-R278. R166, R250-R252.
The model's choices in it, which no rule of the spec states: the turn's checks and stages (log 17, 19), ABORT of a discarded command (log
27), QDELETE's wait (log 28), order after RESUME (log 29), lowest IDs (log 38). -/
def Obligations.QueueCommands : Prop :=
  (∀ (q : Nat) (e : Sqe) (m : HostMem) (s s' : State) (c : Ctx) (id : Nat), s.atTurn q 0x43 e m = some (c, s') →
    s'.d.adminFault c = none →
    (bit (c.e.c 0x7A 1) 0 = true → atLimit (s'.d.hq.cqs.filter fun x => x.conn == c.conn).length s'.d.xpt.cqMax = false →
      s'.d.hq.freeCq = some id →
      ∃ t x, exec (.qcreate q e m) s = .next t ∧ s'.Answers c { b := leBytes 2 id } [] t ∧ t.d.cq? id = some x ∧
        x = { id := id, conn := c.conn, admin := false, addr := c.e.operand.toNat, rkey := c.e.c 0x70 4, depth := c.e.c 0x74 4, head := 0
              tail := 0, dbSeq := 0, nen := true, time := c.e.c 0x7E 2, count := c.e.c 0x7C 2, since := 0, firstAt := 0, faulted := false
              stale := 0, bad := 0, evLost := 0 } ∧
        (∀ j, j ≠ id → t.d.cq? j = s'.d.cq? j)) ∧
    (bit (c.e.c 0x7A 1) 0 = false → atLimit (s'.d.hq.sqs.filter fun x => x.conn == c.conn).length s'.d.xpt.sqMax = false →
      s'.d.hq.freeSq = some id →
      (∃ y, s'.d.cq? (c.e.c 0x78 2) = some y ∧ y.conn = c.conn) →
        ∃ t x, exec (.qcreate q e m) s = .next t ∧ s'.Answers c { b := leBytes 2 id } [] t ∧ t.d.sq? id = some x ∧ x.conn = c.conn ∧
          x.admin = false ∧ x.strict = bit (c.e.c 0x7A 1) 1 ∧ x.cq = c.e.c 0x78 2 ∧ x.addr = c.e.operand.toNat ∧ x.rkey = c.e.c 0x70 4 ∧
          x.depth = c.e.c 0x74 4 ∧ x.weight = c.e.c 0x7B 1 ∧ x.credit = min (c.e.c 0x7C 2) (c.e.c 0x74 4 - 1) ∧ x.head = 0 ∧
          x.fetched = 0 ∧ x.tail = 0 ∧ x.dbSeq = 0 ∧ x.freeze = none ∧ x.serial = s'.d.kvx.domSer + 1)) ∧
  (∀ (q tag : Nat) (s : State) (c : Ctx), s.d.adminFault c = none →
    (s.turnIs q tag 0x43 c → bit (c.e.c 0x7A 1) 0 = false → (∀ y, s.d.cq? (c.e.c 0x78 2) = some y → y.conn ≠ c.conn) →
      ∃ t, exec (.turn q tag) s = .next t ∧ s.Answers c (.badField 10 0x78) [] t) ∧
    (s.turnIs q tag 0x44 c →
      (bit (c.e.c 0x72 1) 0 = false → (∀ x, s.d.sq? (c.e.c 0x70 2) = some x → x.admin = true ∨ x.conn ≠ c.conn) →
        ∃ t, exec (.turn q tag) s = .next t ∧ s.Answers c (.badField 10 0x70) [] t) ∧
      (bit (c.e.c 0x72 1) 0 = true → (∀ x, s.d.cq? (c.e.c 0x70 2) = some x → x.admin = true ∨ x.conn ≠ c.conn) →
        ∃ t, exec (.turn q tag) s = .next t ∧ s.Answers c (.badField 10 0x70) [] t))) ∧
  (∀ (q : Nat) (e : Sqe) (m : HostMem) (s s' : State) (c : Ctx), s'.d.adminFault c = none →
    (s.atTurn q 0x44 (e.withBit 2 false) m = some (c, s') →
      (∀ x, s'.d.sq? (c.e.c 0x70 2) = some x → x.admin = false → x.conn = c.conn → c.e.c 0x70 2 ≠ q → s'.d.sqDrained x = true →
        ∃ t, exec (.qdeleteSq q e m) s = .next t ∧ s'.Answers c { b := leBytes 4 (x.tail - x.fetched) } [] t ∧
          t.d.hq.sqs.all (fun y => y.id != c.e.c 0x70 2) = true ∧ ∀ y ∈ t.d.kvx.ctxs, y.sq ≠ c.e.c 0x70 2) ∧
      (∀ x, s'.d.sq? (c.e.c 0x70 2) = some x → x.admin = false → x.conn = c.conn → s'.d.sqDrained x = false →
        ∃ t y, exec (.qdeleteSq q e m) s = .next t ∧ t.d.sq? (c.e.c 0x70 2) = some y ∧ y.closing = true)) ∧
    (s.atTurn q 0x44 (e.withBit 2 true) m = some (c, s') → ∀ x, s'.d.cq? (c.e.c 0x70 2) = some x →
      (x.admin = false → x.conn = c.conn → (∀ y ∈ s'.d.hq.sqs, y.cq ≠ c.e.c 0x70 2) →
        ∃ t, exec (.qdeleteCq q e m) s = .next t ∧ s'.Answers c {} [] t ∧ t.d.hq.cqs.all (fun y => y.id != c.e.c 0x70 2) = true) ∧
      (x.admin = false → x.conn = c.conn → (∃ y ∈ s'.d.hq.sqs, y.cq = c.e.c 0x70 2) →
        ∃ t, exec (.qdeleteCq q e m) s = .next t ∧ s'.Answers c (.conflict 10 6 1) [] t))) ∧
  (∀ (q : Nat) (e : Sqe) (m : HostMem) (s s' : State) (c : Ctx) (x : Sq), s'.d.adminFault c = none → s'.d.sq? (c.e.c 0x70 2) = some x →
    x.conn = c.conn →
    (∀ f n, x.freeze = some f → f.recSeq = some n → x.admin = false → c.e.c 0x70 2 ≠ q →
      (s.atTurn q 0x45 (e.withBit 2 false) m = some (c, s') → c.e.c 0x74 2 < x.depth →
        ringDist x.depth f.failAbs (c.e.c 0x74 2) ≤ (x.tail - f.failAbs) % x.depth →
        ∀ h, h = x.tail - ringDist x.depth (c.e.c 0x74 2) (x.tail % x.depth) →
        ∃ t, exec (.qrestartResume q e m) s = .next t ∧
          s'.Answers c { b := leBytes 2 (h % x.depth) ++ leBytes 2 0 ++ leBytes 4 (h - f.freezeAbs) ++ leBytes 8 n } [] t ∧
          t.d.sq? (c.e.c 0x70 2) = some { x with freeze := none, fresh := s'.d.kvx.fetchSeq, head := h, fetched := h }) ∧
      (s.atTurn q 0x45 (e.withBit 2 true) m = some (c, s') →
        ∃ t, exec (.qrestartDiscard q e m) s = .next t ∧
          s'.Answers c { b := leBytes 2 (x.tail % x.depth) ++ leBytes 2 0 ++ leBytes 4 (x.tail - f.freezeAbs) ++ leBytes 8 n } [] t ∧
          t.d.sq? (c.e.c 0x70 2) = some { x with freeze := none, fresh := s'.d.kvx.fetchSeq, head := x.tail, fetched := x.tail })) ∧
    (x.freeze = none →
      (s.atTurn q 0x45 (e.withBit 2 false) m = some (c, s') →
        ∃ t, exec (.qrestartResume q e m) s = .next t ∧ s'.Answers c (.conflict 10 6 2) [] t) ∧
      (s.atTurn q 0x45 (e.withBit 2 true) m = some (c, s') →
        ∃ t, exec (.qrestartDiscard q e m) s = .next t ∧ s'.Answers c (.conflict 10 6 2) [] t))) ∧
  (∀ (q : Nat) (e : Sqe) (m : HostMem) (s s' : State) (c : Ctx) (y : Sq), s.atTurn q 0x46 e m = some (c, s') → s'.d.adminFault c = none →
    s'.d.sq? (c.e.c 0x70 2) = some y →
    (y.conn = c.conn → ¬ (c.e.c 0x70 2 = c.sq ∧ c.e.c 0x72 2 = c.e.tag.toNat) →
      (∀ x, s'.d.target (c.e.c 0x70 2) (c.e.c 0x72 2) = some x → x.turned = false → x.settled = false →
        s'.d.soleCtx x.sq x.ord = true →
        ∃ t z, exec (.abort q e m) s = .next t ∧ t.d.answers c { b := leBytes 2 0x7003 } ∧ t.d.ctx? x.sq x.ord = some z ∧
          z.marked = some (c.e.tag.toNat, c.sq) ∧ t.d.turnAllowed z = false ∧
          ((∃ p o, x.wait = .domino p o) ∨ x.wait = .barrier ∨ x.wait = .catchUp ∨ x.wait = .watchSlot → x.reads = [] →
            z.settled = true ∧ z.res.status = 0x7003 ∧ z.res.b = leBytes 2 c.e.tag.toNat ++ leBytes 2 c.sq) ∧
          s'.d.Kept t.d ∧ s'.SameBut settleParts t) ∧
      (s'.d.target (c.e.c 0x70 2) (c.e.c 0x72 2) = none ∨
          (∃ x, s'.d.target (c.e.c 0x70 2) (c.e.c 0x72 2) = some x ∧ (x.turned = true ∨ x.settled = true)) →
        ∃ t, exec (.abort q e m) s = .next t ∧ s'.Answers c { b := leBytes 2 0x7004 } [] t)) ∧
    (y.conn ≠ c.conn → ∃ t, exec (.abort q e m) s = .next t ∧ s'.Answers c (.badField 10 0x70) [] t) ∧
    (y.conn = c.conn → c.e.c 0x70 2 = c.sq → c.e.c 0x72 2 = c.e.tag.toNat →
      ∃ t, exec (.abort q e m) s = .next t ∧ s'.Answers c (.badField 10 0x72) [] t))

/-- R21, R163, R167, R168, R171, R172, R609, R610. `vlen` bounds what a buffer takes.
The model's choices in it, which no rule of the spec states: range faults (log 18), byte 0x099 of IDENTIFY (log 45), page 4 (log 46),
records frozen (log 67), posted writes (log 79). -/
def Obligations.AdminReads : Prop :=
  (∀ (q : Nat) (e : Sqe) (m : HostMem) (s s' : State) (c : Ctx) (d0 : Bytes) (r : List Word × State), s.atTurn q 0x47 e m = some (c, s') →
    s'.d.adminFault c = none → r = s'.readRegs .admin (c.e.c 0x70 2) (c.e.c 0x72 2) → d0 = r.1.flatMap (fun w => leBytes 4 w.toNat) →
    c.e.vlen ≠ 0 → c.e.c 0x72 2 ≠ 0 → (s'.d.conn? c.conn).isSome = true → (∀ w ∈ s'.d.sys.posted, w.path ≠ .admin) →
    ∃ t x, exec (.regRead q e m) s = .next t ∧ t.d.Sends c (d0.take c.e.vlen) ∧ t.d.ctx? c.sq c.ord = some x ∧ x.turned = true ∧
      x.res = { b := slice d0 0 4, len := 4 * c.e.c 0x72 2 } ∧ s'.d.Kept t.d ∧ s'.SameBut (.sys :: settleParts) t) ∧
  (∀ (q : Nat) (e : Sqe) (m : HostMem) (s s' : State) (c : Ctx), s.atTurn q 0x48 e m = some (c, s') → s'.d.adminFault c = none →
    ∃ t, exec (.regWrite q e m) s = .next t ∧ s'.Answers c {} [.sys] t ∧
      t.d.sys = { s'.d.sys with posted := s'.d.sys.posted ++ (List.range (c.e.c 0x72 2)).map fun i =>
        { path := .admin, off := c.e.c 0x70 2 + 4 * i, val := BitVec.ofNat 32 (le (c.value 0) (4 * i) 4) } }) ∧
  (∀ (q : Nat) (e : Sqe) (m : HostMem) (s s' : State) (c : Ctx) (n : Nat) (b : Bytes), s.atTurn q 0x49 e m = some (c, s') →
    s'.d.adminFault c = none → (n, b) = s'.logPage c (c.e.c 0x74 8) c.e.vlen →
    (c.e.c 0x74 8 < n → c.e.vlen ≠ 0 → b ≠ [] → (s'.d.conn? c.conn).isSome = true →
      ∃ t, exec (.logread q e m) s = .next t ∧ s'.Gives c { len := n } b t) ∧
    (n ≤ c.e.c 0x74 8 → ∃ t, exec (.logread q e m) s = .next t ∧ s'.Answers c (.failed stRange 10 [] n) [] t)) ∧
  (∀ (q : Nat) (e : Sqe) (m : HostMem) (s s' : State) (c : Ctx), s.atTurn q 0x55 e m = some (c, s') → s'.d.adminFault c = none →
    (∀ b, s'.identifyData c = some b → b ≠ [] → c.e.vlen ≠ 0 → (s'.d.conn? c.conn).isSome = true →
      ∃ t, exec (.identify q e m) s = .next t ∧ s'.Gives c { len := b.length } b t)) ∧
  (∀ (q tag : Nat) (s : State) (c : Ctx), s.turnIs q tag 0x55 c → s.d.adminFault c = none → c.e.c 0x70 1 = 1 →
    s.d.kvx.store.ks? c.e.ksId = none →
    ∃ t, exec (.turn q tag) s = .next t ∧ s.EndsWith c 0x8001 t) ∧
  (∀ (q : Nat) (e : Sqe) (m : HostMem) (s s' : State) (c : Ctx), s'.d.adminFault c = none →
    (s.atTurn q 0x4A e m = some (c, s') → ∃ t, exec (.evfreeze q e m) s = .next t ∧ s'.Answers c { b := leBytes 8 s'.d.evr.newest } [] t ∧
      (s'.d.evr.front.length < 3584 →
        t.d.evr = { s'.d.evr with freeze := some s'.d.clk.life, front := s'.d.evr.front.map fun r => { r with frozen := true } }) ∧
      (3584 ≤ s'.d.evr.front.length → t.d.evr.freeze = none ∧ t.d.evr.lift = 2)) ∧
    (s.atTurn q 0x4B e m = some (c, s') → ∃ t, exec (.evthaw q e m) s = .next t ∧ s'.Answers c {} [] t ∧
      t.d.evr = (if s'.d.evr.freeze.isSome then { s'.d.evr with freeze := none, lift := 1 } else s'.d.evr)))

/-- R67, R77, R169, R170, R460-R465. The blob is the command's value; `openBlob` makes the checks of R460 and R461.
The model's choices in it, which no rule of the spec states: when KEYLOAD is checked (log 22), usable keys (log 9), the kind byte of the
tenant event (log 41), the standards (log 10). -/
def Obligations.KeyCommands : Prop :=
  (∀ (q : Nat) (e : Sqe) (m : HostMem) (s s' : State) (c : Ctx), s.atTurn q 0x4C (e.withCmd 0 [0]) m = some (c, s') →
    s'.d.adminFault c = none → c.e.c 0x70 1 = 0 →
    (s'.d.kvx.store.slotKey (c.e.c 0x72 2) = none → s'.d.cry.p384Bad = false → s'.d.noCore true true = false →
      (∀ key, s'.d.openBlob (blobFits c.e (c.value 0)) (c.value 0) = .ok key → s'.d.ledger c 128 ≠ .wait →
        ∃ t, exec (.keyloadSlot q e m) s = .next t ∧ t.d.cry = { s'.d.cry with blobSer := le (c.value 0) 0x10 8 } ∧
          s'.Commits c [.slotLoad { slot := c.e.c 0x72 2, key := key, persistent := bit (byteAt (c.value 0) 9) 0 } s'.d.kvx.deleting] {} t) ∧
      (∀ r, s'.d.openBlob (blobFits c.e (c.value 0)) (c.value 0) = .error r →
        ∃ t, exec (.keyloadSlot q e m) s = .next t ∧ s'.Answers c (blobRes r) [.cry] t ∧
          t.d.cry = { s'.d.cry with blobF := wrap32 (s'.d.cry.blobF + 1) } ∧ t.d.events 0x1C0 = wrap32 (s'.d.events 0x1C0 + 1)))) ∧
  (∀ (q tag : Nat) (s : State) (c : Ctx), s.turnIs q tag 0x4C c → s.d.adminFault c = none → c.e.c 0x70 1 = 0 →
    (s.d.kvx.store.slotKey (c.e.c 0x72 2)).isSome = true →
    ∃ t, exec (.turn q tag) s = .next t ∧ s.Answers c (.conflict 10 7 1) [] t) ∧
  (∀ (q : Nat) (e : Sqe) (m : HostMem) (s s' : State) (c : Ctx), s.atTurn q 0x4C (e.withCmd 0 [1]) m = some (c, s') →
    s'.d.adminFault c = none → c.e.c 0x70 1 = 1 → s'.d.kvx.store.tenantFault (c.e.c 0x74 4) (c.e.c 0x78 1 == 1) = none →
    s'.d.cry.p384Bad = false → s'.d.noCore true true = false →
    (∀ key, s'.d.openBlob (blobFits c.e (c.value 0)) (c.value 0) = .ok key → s'.d.ledger c 128 ≠ .wait →
      ∃ t, exec (.keyloadTenant q e m) s = .next t ∧ t.d.cry = { s'.d.cry with blobSer := le (c.value 0) 0x10 8 } ∧
        s'.Commits c [.tenantSet { id := c.e.c 0x74 4, key := key, admin := c.e.c 0x78 1 == 1 }] {} t ∧
        t.d.events 0x099 = wrap32 (s'.d.events 0x099 + 1)) ∧
    (∀ r, s'.d.openBlob (blobFits c.e (c.value 0)) (c.value 0) = .error r →
      ∃ t, exec (.keyloadTenant q e m) s = .next t ∧ s'.Answers c (blobRes r) [.cry] t)) ∧
  (∀ (q : Nat) (e : Sqe) (m : HostMem) (s s' : State) (c : Ctx), s.atTurn q 0x4C (e.withCmd 0 [2]) m = some (c, s') →
    s'.d.adminFault c = none → c.e.c 0x70 1 = 2 → s'.d.ledger c 128 ≠ .wait →
    ∃ t, exec (.tokenKeyRotation q e m) s = .next t ∧
      s'.Commits c [.tokenRotate (s'.d.draw 32).1] { b := leBytes 1 ((s'.d.kvx.store.epoch + 1) % 16) } t ∧
      t.d.kvx.store.epoch = (s'.d.kvx.store.epoch + 1) % 16 ∧ t.d.kvx.store.tokPrev = s'.d.kvx.store.tokCur) ∧
  (∀ (q : Nat) (e : Sqe) (m : HostMem) (s s' : State) (c : Ctx), s.atTurn q 0x4D (e.withCmd 0 [0]) m = some (c, s') →
    s'.d.adminFault c = none → c.e.c 0x70 1 = 0 →
    ((s'.d.kvx.store.slotKey (c.e.c 0x72 2)).isSome = true → s'.d.ledger c 128 ≠ .wait →
      ∃ t, exec (.keydropSlot q e m) s = .next t ∧ s'.Commits c [.slotDrop (c.e.c 0x72 2)] {} t) ∧
    (s'.d.kvx.store.slotKey (c.e.c 0x72 2) = none → ∃ t, exec (.keydropSlot q e m) s = .next t ∧ s'.EndsWith c 0x1001 t)) ∧
  (∀ (q : Nat) (e : Sqe) (m : HostMem) (s s' : State) (c : Ctx), s.atTurn q 0x4D (e.withCmd 0 [1]) m = some (c, s') →
    s'.d.adminFault c = none → c.e.c 0x70 1 = 1 →
    (∀ x, s'.d.kvx.store.tenant? (c.e.c 0x74 4) = some x → x.admin = false ∨ s'.d.kvx.store.otherAdmin (c.e.c 0x74 4) = true →
      s'.d.ledger c 128 ≠ .wait →
      ∃ t, exec (.keydropTenant q e m) s = .next t ∧ s'.Commits c [.tenantDrop (c.e.c 0x74 4)] {} t ∧
        t.d.events 0x099 = wrap32 (s'.d.events 0x099 + 1) ∧
        ∀ k y, t.d.conn? k = some y → y.tenant = c.e.c 0x74 4 → y.state ≠ .ready) ∧
    (∀ x, s'.d.kvx.store.tenant? (c.e.c 0x74 4) = some x → x.admin = true → s'.d.kvx.store.otherAdmin (c.e.c 0x74 4) = false →
      ∃ t, exec (.keydropTenant q e m) s = .next t ∧ s'.Answers c (.conflict 10 7 2) [] t) ∧
    (s'.d.kvx.store.tenant? (c.e.c 0x74 4) = none → ∃ t, exec (.keydropTenant q e m) s = .next t ∧ s'.EndsWith c 0x1001 t))

/-- R137, R519-R521, R580, R581, R584-R586.
The model's choices in it, which no rule of the spec states: stage 10 for refusals (log 17), what runs beside a SANITIZE (log 44), its steps
(log 66), the coded state of a test (log 65). -/
def Obligations.ModeTestSanitize : Prop :=
  (∀ (q : Nat) (e : Sqe) (m : HostMem) (s s' : State) (c : Ctx) (n cap : Nat), s.atTurn q 0x4E e m = some (c, s') →
    s'.d.adminFault c = none → c.e.c 0x70 1 = n → (if c.e.c 0x71 1 = 0 then s'.d.pwr.capSel else c.e.c 0x71 1) = cap →
    (s'.d.pwr.change = none → s'.d.modeRefusal n = none → n ≠ s'.d.pwr.cur →
      ∃ t, exec (.setmode q e m) s = .next t ∧ s'.Answers c { b := leBytes 1 s'.d.pwr.cur ++ leBytes 1 n } [.pwr] t ∧
        (∀ x, t.d.ctx? c.sq c.ord = some x → t.d.cqeAllowed x = false) ∧
        t.d.pwr = { s'.d.pwr with capSel := cap, change := some { target := n, cmd := some (c.sq, c.ord), byPwr := false
                                                                  before := s'.d.pwr.cur, drained := false } }) ∧
    (s'.d.pwr.change = none → s'.d.modeRefusal n = none → n = s'.d.pwr.cur →
      ∃ t, exec (.setmode q e m) s = .next t ∧ s'.Answers c { b := leBytes 1 n ++ leBytes 1 n } [.pwr] t ∧
        t.d.pwr = { s'.d.pwr with capSel := cap }) ∧
    (∀ r, s'.d.pwr.change = none → s'.d.modeRefusal n = some r → ∃ t, exec (.setmode q e m) s = .next t ∧ s'.Answers c r [] t) ∧
    (s'.d.pwr.change.isSome = true → ∃ t x, exec (.setmode q e m) s = .next t ∧ t.d.ctx? c.sq c.ord = some x ∧ x.settled = false ∧
      t.d.pwr = s'.d.pwr)) ∧
  (∀ (q : Nat) (e : Sqe) (m : HostMem) (s s' : State) (c : Ctx), s'.d.adminFault c = none →
    (s.atTurn q 0x4F (e.withCmd 0 [1]) m = some (c, s') → c.e.c 0x70 1 = 1 →
      s'.d.upd.activating = false → s'.d.upd.testing = false →
        ∃ t, exec (.selftestShort q e m) s = .next t ∧ s'.Answers c {} [.upd] t ∧ t.d.upd = { s'.d.upd with
          tests := ({ kind := 1, state := 1, part := 0, unit := 0, loc := 0, read := 0, step2 := 0, waited := 0, pct := 0
                      start := s'.d.clk.life, stop := 0 } :: s'.d.upd.tests).take 8, tested := true }) ∧
    (s.atTurn q 0x4F (e.withCmd 0 [2]) m = some (c, s') → c.e.c 0x70 1 = 2 → s'.d.upd.activating = false → s'.d.upd.testing = false →
      ∃ t, exec (.selftestExtended q e m) s = .next t ∧ s'.Answers c {} [.upd] t ∧ t.d.upd = { s'.d.upd with
        tests := ({ kind := 2, state := 1, part := 0, unit := 0, loc := 0, read := 0, step2 := 0, waited := 0, pct := 0
                    start := s'.d.clk.life, stop := 0 } :: s'.d.upd.tests).take 8, tested := true }) ∧
    (s.atTurn q 0x4F (e.withCmd 0 [0xF]) m = some (c, s') → c.e.c 0x70 1 = 0xF → s'.d.upd.activating = false →
      ∀ x l, s'.d.upd.tests = x :: l → x.state = 1 → ∃ t, exec (.selftestStop q e m) s = .next t ∧ s'.Answers c {} [.upd] t ∧
        t.d.upd = { s'.d.upd with tests := { x with state := 4, stop := s'.d.clk.life } :: l } ∧
        t.d.events 0x1F8 = wrap32 (s'.d.events 0x1F8 + 1))) ∧
  (∀ (q tag : Nat) (s : State) (c : Ctx), s.d.adminFault c = none →
    (s.turnIs q tag 0x4F c →
      (s.d.upd.activating = true → ∃ t, exec (.turn q tag) s = .next t ∧ s.Answers c (.conflict 10 4 3) [] t) ∧
      (s.d.upd.activating = false → (c.e.c 0x70 1 == 0xF) ≠ s.d.upd.testing →
        ∃ t, exec (.turn q tag) s = .next t ∧ s.Answers c (.conflict 10 4 2) [] t)) ∧
    (s.turnIs q tag 0x54 c → s.d.upd.activating = true →
      ∃ t, exec (.turn q tag) s = .next t ∧ s.Answers c (.conflict 10 4 3) [] t)) ∧
  (∀ (q : Nat) (e : Sqe) (m : HostMem) (s s' : State) (c : Ctx), s.atTurn q 0x54 e m = some (c, s') → s'.d.adminFault c = none →
    s'.d.upd.activating = false → s'.Wf →
      ∃ t, exec (.sanitize q e m) s = .next t ∧ t.d.answers c {} ∧ t.d.upd.sanState = 1 ∧ t.d.upd.sanBlock = bit (c.e.c 0x70 1) 0 ∧
        t.d.upd.sanStep = 1 ∧ t.d.upd.sanStart = s'.d.clk.life ∧ t.d.events 0x1F7 = wrap32 (s'.d.events 0x1F7 + 1) ∧
        t.nv.fuses = s'.nv.fuses ∧
        (∀ k, (∀ b, b < 4 → k < bankBase b ∨ bankBase b + 2 ^ 20 ≤ k) → flashByte k t.nv.flash = flashByte k s'.nv.flash) ∧
        t.pending = s'.pending ∧ s'.d.Kept t.d ∧ s'.d.SameBut ([.upd, .free] ++ settleParts) t.d)

/-- R545, R563-R567, R572. Stages: 0 IDLE, 1 VERIFIED, 2 PENDING, 3 ACTIVATING, 4 TRIAL.
The model's choices in it, which no rule of the spec states: stage 10 for refusals (log 17), which sector of a download fails (log 65),
the activation as a live action (log 64), fuses in one step (log 97), the standards (log 10). -/
def Obligations.FirmwareCommands : Prop :=
  (∀ (q : Nat) (e : Sqe) (m : HostMem) (s s' : State) (c : Ctx) (base off : Nat), s.atTurn q 0x50 e m = some (c, s') →
    s'.d.adminFault c = none → slotBase s'.nv.inactive = base → c.e.c 0x70 4 = off →
    (s'.d.upd.stage < 2 → s'.Wf → ∃ t, exec (.fwdownload q e m) s = .next t ∧
      t.d.answers c (if (badSector s'.d.free (c.value 0).length).isSome then .failed stWriteFault 9 else {}) ∧
      t.d.upd = { s'.d.upd with stage := 0, fresh := false } ∧ t.nv.fuses = s'.nv.fuses ∧
      (∀ k, (∀ j, badSector s'.d.free (c.value 0).length = some j → k < base + off + 4096 * j ∨ base + off + 4096 * (j + 1) ≤ k) →
        flashByte k t.nv.flash =
        if base + off ≤ k ∧ k < base + off + (c.value 0).length then (c.value 0).getD (k - (base + off)) 0
        else if (base + off ≤ k ∧ k < base + off + roundUp (c.value 0).length 4096) ∨
          ((s'.d.upd.stage = 1 ∨ s'.d.upd.fresh = true) ∧ base ≤ k ∧ k < base + 4096) then 0xFF
        else flashByte k s'.nv.flash) ∧
      t.pending = s'.pending ∧ s'.d.Kept t.d ∧ s'.d.SameBut (.upd :: .free :: settleParts) t.d) ∧
    (2 ≤ s'.d.upd.stage → ∃ t, exec (.fwdownload q e m) s = .next t ∧ s'.Answers c (.conflict 10 8 3) [] t)) ∧
  (∀ (q : Nat) (e : Sqe) (m : HostMem) (s s' : State) (c : Ctx), s.atTurn q 0x51 e m = some (c, s') → s'.d.adminFault c = none →
    s'.d.noCore false true = false →
    (s'.nv.verify s'.nv.inactive = 0 → ∃ t, exec (.fwverify q e m) s = .next t ∧
      s'.Answers c { b := leBytes 8 (s'.nv.slotRev s'.nv.inactive) } [.upd] t ∧
      t.d.upd = { s'.d.upd with stage := if s'.d.upd.stage = 0 then 1 else s'.d.upd.stage }) ∧
    (s'.nv.verify s'.nv.inactive ≠ 0 → ∃ t, exec (.fwverify q e m) s = .next t ∧
      s'.Answers c (.failed 0x8003 9 (leBytes 1 (verifyReason (s'.nv.verify s'.nv.inactive)))) [.upd] t ∧ t.d.upd.stage ≠ 1)) ∧
  (∀ (q : Nat) (e : Sqe) (m : HostMem) (s s' : State) (c : Ctx) (n : Nat), s'.d.adminFault c = none →
    (if s'.d.upd.stage = 0 then 1 else 3) = n →
    (s.atTurn q 0x52 (e.withBit 0 false) m = some (c, s') → bit (c.e.c 0x70 1) 0 = false →
      (s'.d.upd.stage = 1 → ∃ t, exec (.fwactivateReset q e m) s = .next t ∧ t.d.answers c {} ∧
        t.nv = s'.nv.writeBoot (s'.nv.activation s'.d.clk.life) ∧ t.d.upd = { s'.d.upd with stage := 2, fresh := true } ∧
        t.pending = s'.pending ∧ s'.d.Kept t.d ∧ s'.d.SameBut (.upd :: settleParts) t.d) ∧
      (s'.d.upd.stage ≠ 1 → ∃ t, exec (.fwactivateReset q e m) s = .next t ∧ s'.Answers c (.conflict 10 8 n) [] t)) ∧
    (s.atTurn q 0x52 (e.withBit 0 true) m = some (c, s') → bit (c.e.c 0x70 1) 0 = true →
      (s'.d.upd.stage = 1 → ∃ t x, exec (.fwactivateLive q e m) s = .next t ∧ t.d.upd.stage = 3 ∧ t.d.upd.step = 1 ∧
        s'.d.Starts 0x0E 0 1 true t.d ∧ t.d.ctx? c.sq c.ord = some x ∧ x.turned = true ∧ x.settled = false ∧ s'.d.Kept t.d ∧
        s'.SameBut (.upd :: settleParts) t) ∧
      (s'.d.upd.stage ≠ 1 → ∃ t, exec (.fwactivateLive q e m) s = .next t ∧ s'.Answers c (.conflict 10 8 n) [] t))) ∧
  (∀ (q : Nat) (e : Sqe) (m : HostMem) (s s' : State) (c : Ctx), s.atTurn q 0x53 e m = some (c, s') → s'.d.adminFault c = none →
    (s'.d.upd.stage = 4 → s'.Wf → ∃ t, exec (.fwconfirm q e m) s = .next t ∧ t.d.answers c {} ∧ t.d.upd.stage = 0 ∧
      t.d.upd.trialEnd = none ∧ t.nv.fuses = min 256 (max s'.nv.fuses (headerLevel (s'.nv.header s'.nv.boot.slot))) ∧
      (∀ k, (∀ b, b < 4 → k < bankBase b ∨ bankBase b + 2 ^ 20 ≤ k) →
        flashByte k t.nv.flash = flashByte k (s'.nv.writeBoot { s'.nv.boot with trial := false }).flash) ∧
      t.d.events 0x1F4 = wrap32 (s'.d.events 0x1F4 + 1) ∧ t.pending = s'.pending ∧ s'.d.Kept t.d ∧
      s'.d.SameBut ([.upd, .free] ++ settleParts) t.d) ∧
    (s'.d.upd.stage ≠ 4 → ∃ t, exec (.fwconfirm q e m) s = .next t ∧ s'.Answers c (.conflict 10 8 2) [] t))

/-- R56. A change `x` of the stored state is what a commit record makes (R406); `evalOp` evaluates an operation at its turn. -/
def Obligations.HighWaterMark : Prop :=
  (∀ (q : Nat) (e : Sqe) (m : HostMem) (s s' : State) (c : Ctx) (k : KeySpace) (n : Nat) (key : Bytes),
    s.atTurn q 0x40 e m = some (c, s') → s'.d.adminFault c = none → parseDescriptor c.e.ksId true (c.value 0) = some (k, n) →
    s'.d.kvx.store.slotKey k.slot = some key → s'.d.kvx.store.ks? k.id = none →
    s'.d.kvx.store.created < 0xFFFFFFFF → s'.d.ledger c 128 ≠ .wait →
    ∃ t k', exec (.kscreate q e m) s = .next t ∧ t.d.kvx.store.ks? k.id = some k' ∧ k'.hwm = 0) ∧
  (∀ (o : WriteOp) (x : Store) (t w : Nat) (r : Eval), o.kind = .delete → evalOp x o t w = .ok r →
    ∃ v k k', x.get? o.ks o.key = some v ∧ x.ks? o.ks = some k ∧ r.effs = [.delRec o.ks o.key] ∧
      (x.apply t (.delRec o.ks o.key)).ks? o.ks = some k' ∧ k'.hwm = max k.hwm v.version ∧
      (x.apply t (.delRec o.ks o.key)).get? o.ks o.key = none) ∧
  (∀ (x : Store) (t : Nat) (f : Effect) (id : Nat) (k k' : KeySpace), x.ks? id = some k → (x.apply t f).ks? id = some k' →
    (∀ key, f ≠ .delRec id key) → (∀ n, f ≠ .ksCreate n) → k'.hwm = k.hwm)

/-- R20. `drain` makes the posted writes of a path take effect (R21-R23); an island in reset is one of those that are down (R12, R19). -/
def Obligations.WritesToDownIslands : Prop :=
  (∀ (s : State) (p : Path) (off : Nat) (v : Word) (d : Drive), s.d.reachable = true → regOffset off = true → s.d.drain p = d →
    d.islState (regIsland off) ≠ 0 →
    ∃ d', exec (.registerWrite p off v) s = .next { s with d := d' } ∧
      d'.sys.path p = { d.sys.path p with islDown := true, isl := regIsland off } ∧ (∀ q, q ≠ p → d'.sys.path q = d.sys.path q) ∧
      d'.sys.posted = d.sys.posted ∧ d.SameBut (.sys :: eventParts) d') ∧
  (∀ (d : Drive) (p : Path) (w : Posted), (d.sys.posted.filter fun x => x.path == p) = [w] → d.islState (regIsland w.off) ≠ 0 →
    (d.drain p).sys.path p = { d.sys.path p with islDown := true, isl := regIsland w.off } ∧
      (∀ q, q ≠ p → (d.drain p).sys.path q = d.sys.path q) ∧
      (d.drain p).sys.posted = (d.sys.posted.filter fun x => x.path != p) ∧ d.SameBut (.sys :: eventParts) (d.drain p)) ∧
  (∀ (d : Drive) (i : Nat), 2 ≤ i → i ∈ d.upd.inReset → d.islState i ≠ 0)
end

