-- ==== Sys2Proof/Laws/Bytes.lean ====
section
/-! SUPPORT. Byte strings: slices of a concatenation, lengths of encodings and digests. -/

namespace Sys2Proof.Machine

/-- A slice that ends within the first part. -/
theorem slice_head (a b : Bytes) (o n : Nat) (h : o + n ≤ a.length) : slice (a ++ b) o n = slice a o n := by
  simp only [slice, List.drop_append_of_le_length (show o ≤ a.length by omega)]
  rw [List.take_append_of_le_length (by simp; omega)]

/-- A slice that starts after the first part. -/
theorem slice_tail (a b : Bytes) (o n : Nat) (h : a.length ≤ o) : slice (a ++ b) o n = slice b (o - a.length) n := by
  simp only [slice, List.drop_append, List.drop_eq_nil_of_le h, List.nil_append]

/-- Both halves of a working state have four words. -/
def Halves.four {w : Nat} (st : Halves w) : Prop := st.1.length = 4 ∧ st.2.length = 4

theorem sha2Round_four {w : Nat} (p : Sha2 w) (st : Halves w) (k : BitVec w × BitVec w) (h : st.four) : (sha2Round p st k).four := by
  unfold sha2Round; split
  · exact ⟨rfl, rfl⟩
  · exact h
theorem sha2Block_four {w : Nat} (p : Sha2 w) (st : Halves w) (b : Bytes) (h : st.four) : (sha2Block p st b).four := by
  have r : ∀ (ks : List (BitVec w × BitVec w)) (st : Halves w), st.four → (ks.foldl (sha2Round p) st).four := by
    intro ks; induction ks with
    | nil => exact fun _ h => h
    | cons k ks ih => exact fun st h => ih _ (sha2Round_four p st k h)
  have := r (p.k.zip (sha2Extend p (p.k.length - 16) ((blocks (w / 8) b).map (beWord w)).reverse).reverse) st h
  exact ⟨by simp [sha2Block, h.1, this.1], by simp [sha2Block, h.2, this.2]⟩
theorem beBytes_length (n v : Nat) : (beBytes n v).length = n := by
  rw [beBytes, List.length_reverse]
  induction n generalizing v with
  | zero => rfl
  | succ n ih => rw [leBytes, List.length_cons, ih]

theorem sha2_length {w : Nat} (p : Sha2 w) (iv : List (BitVec w)) (m : Bytes) (h : iv.length = 8) : (sha2 p iv m).length = 8 * (w / 8) := by
  have r : ∀ (bs : List Bytes) (st : Halves w), st.four → (bs.foldl (sha2Block p) st).four := by
    intro bs; induction bs with
    | nil => exact fun _ h => h
    | cons b bs ih => exact fun st h => ih _ (sha2Block_four p st b h)
  have f := r (blocks p.block (sha2Pad p.block (p.block / 8) m)) (iv.take 4, iv.drop 4) ⟨by simp [h], by simp [h]⟩
  rw [sha2, List.length_flatMap, show (fun x : BitVec w => (beBytes (w / 8) x.toNat).length) = fun _ => w / 8 from funext fun x => beBytes_length _ _]
  simp only [List.map_const', List.sum_replicate_nat, List.length_append, f.1, f.2]

/-- A SHA-256 digest has 32 bytes. -/
theorem sha256_length (m : Bytes) : (sha256 m).length = 32 := by rw [sha256, sha2_length _ _ _ (by decide)]

/-- A SHA-384 digest has 48 bytes. -/
theorem sha384_length (m : Bytes) : (sha384 m).length = 48 := by rw [sha384, List.length_take, sha2_length _ _ _ (by decide)]; decide

end Sys2Proof.Machine
end

