-- ==== Sys2Proof/Laws/State.lean ====
section
/-! SUPPORT. What each update of a part of the drive reads as, field by field. -/

namespace Sys2Proof.Machine

variable (d : Drive)

@[simp] theorem Drive.onKvx_kvx (f : Kvx → Kvx) : (d.onKvx f).kvx = f d.kvx := rfl
@[simp] theorem Drive.onKvx_hq (f : Kvx → Kvx) : (d.onKvx f).hq = d.hq := rfl
@[simp] theorem Drive.onKvx_xpt (f : Kvx → Kvx) : (d.onKvx f).xpt = d.xpt := rfl
@[simp] theorem Drive.onKvx_evr (f : Kvx → Kvx) : (d.onKvx f).evr = d.evr := rfl
@[simp] theorem Drive.onKvx_clk (f : Kvx → Kvx) : (d.onKvx f).clk = d.clk := rfl
@[simp] theorem Drive.onKvx_idx (f : Kvx → Kvx) : (d.onKvx f).idx = d.idx := rfl
@[simp] theorem Drive.onKvx_csc (f : Kvx → Kvx) : (d.onKvx f).csc = d.csc := rfl
@[simp] theorem Drive.onKvx_med (f : Kvx → Kvx) : (d.onKvx f).med = d.med := rfl
@[simp] theorem Drive.onKvx_bank (f : Kvx → Kvx) : (d.onKvx f).bank = d.bank := rfl
@[simp] theorem Drive.onKvx_portA (f : Kvx → Kvx) : (d.onKvx f).portA = d.portA := rfl
@[simp] theorem Drive.onKvx_portB (f : Kvx → Kvx) : (d.onKvx f).portB = d.portB := rfl
@[simp] theorem Drive.onKvx_jack (f : Kvx → Kvx) : (d.onKvx f).jack = d.jack := rfl
@[simp] theorem Drive.onKvx_cry (f : Kvx → Kvx) : (d.onKvx f).cry = d.cry := rfl
@[simp] theorem Drive.onKvx_dmc (f : Kvx → Kvx) : (d.onKvx f).dmc = d.dmc := rfl
@[simp] theorem Drive.onKvx_pwr (f : Kvx → Kvx) : (d.onKvx f).pwr = d.pwr := rfl
@[simp] theorem Drive.onKvx_upd (f : Kvx → Kvx) : (d.onKvx f).upd = d.upd := rfl
@[simp] theorem Drive.onKvx_mgmt (f : Kvx → Kvx) : (d.onKvx f).mgmt = d.mgmt := rfl
@[simp] theorem Drive.onKvx_sys (f : Kvx → Kvx) : (d.onKvx f).sys = d.sys := rfl
@[simp] theorem Drive.onKvx_free (f : Kvx → Kvx) : (d.onKvx f).free = d.free := rfl

@[simp] theorem Drive.onHq_kvx (f : Hq → Hq) : (d.onHq f).kvx = d.kvx := rfl
@[simp] theorem Drive.onHq_hq (f : Hq → Hq) : (d.onHq f).hq = f d.hq := rfl
@[simp] theorem Drive.onHq_xpt (f : Hq → Hq) : (d.onHq f).xpt = d.xpt := rfl
@[simp] theorem Drive.onHq_evr (f : Hq → Hq) : (d.onHq f).evr = d.evr := rfl
@[simp] theorem Drive.onHq_clk (f : Hq → Hq) : (d.onHq f).clk = d.clk := rfl
@[simp] theorem Drive.onHq_idx (f : Hq → Hq) : (d.onHq f).idx = d.idx := rfl
@[simp] theorem Drive.onHq_csc (f : Hq → Hq) : (d.onHq f).csc = d.csc := rfl
@[simp] theorem Drive.onHq_med (f : Hq → Hq) : (d.onHq f).med = d.med := rfl
@[simp] theorem Drive.onHq_bank (f : Hq → Hq) : (d.onHq f).bank = d.bank := rfl
@[simp] theorem Drive.onHq_portA (f : Hq → Hq) : (d.onHq f).portA = d.portA := rfl
@[simp] theorem Drive.onHq_portB (f : Hq → Hq) : (d.onHq f).portB = d.portB := rfl
@[simp] theorem Drive.onHq_jack (f : Hq → Hq) : (d.onHq f).jack = d.jack := rfl
@[simp] theorem Drive.onHq_cry (f : Hq → Hq) : (d.onHq f).cry = d.cry := rfl
@[simp] theorem Drive.onHq_dmc (f : Hq → Hq) : (d.onHq f).dmc = d.dmc := rfl
@[simp] theorem Drive.onHq_pwr (f : Hq → Hq) : (d.onHq f).pwr = d.pwr := rfl
@[simp] theorem Drive.onHq_upd (f : Hq → Hq) : (d.onHq f).upd = d.upd := rfl
@[simp] theorem Drive.onHq_mgmt (f : Hq → Hq) : (d.onHq f).mgmt = d.mgmt := rfl
@[simp] theorem Drive.onHq_sys (f : Hq → Hq) : (d.onHq f).sys = d.sys := rfl
@[simp] theorem Drive.onHq_free (f : Hq → Hq) : (d.onHq f).free = d.free := rfl

@[simp] theorem Drive.onXpt_kvx (f : Xpt → Xpt) : (d.onXpt f).kvx = d.kvx := rfl
@[simp] theorem Drive.onXpt_hq (f : Xpt → Xpt) : (d.onXpt f).hq = d.hq := rfl
@[simp] theorem Drive.onXpt_xpt (f : Xpt → Xpt) : (d.onXpt f).xpt = f d.xpt := rfl
@[simp] theorem Drive.onXpt_evr (f : Xpt → Xpt) : (d.onXpt f).evr = d.evr := rfl
@[simp] theorem Drive.onXpt_clk (f : Xpt → Xpt) : (d.onXpt f).clk = d.clk := rfl
@[simp] theorem Drive.onXpt_idx (f : Xpt → Xpt) : (d.onXpt f).idx = d.idx := rfl
@[simp] theorem Drive.onXpt_csc (f : Xpt → Xpt) : (d.onXpt f).csc = d.csc := rfl
@[simp] theorem Drive.onXpt_med (f : Xpt → Xpt) : (d.onXpt f).med = d.med := rfl
@[simp] theorem Drive.onXpt_bank (f : Xpt → Xpt) : (d.onXpt f).bank = d.bank := rfl
@[simp] theorem Drive.onXpt_portA (f : Xpt → Xpt) : (d.onXpt f).portA = d.portA := rfl
@[simp] theorem Drive.onXpt_portB (f : Xpt → Xpt) : (d.onXpt f).portB = d.portB := rfl
@[simp] theorem Drive.onXpt_jack (f : Xpt → Xpt) : (d.onXpt f).jack = d.jack := rfl
@[simp] theorem Drive.onXpt_cry (f : Xpt → Xpt) : (d.onXpt f).cry = d.cry := rfl
@[simp] theorem Drive.onXpt_dmc (f : Xpt → Xpt) : (d.onXpt f).dmc = d.dmc := rfl
@[simp] theorem Drive.onXpt_pwr (f : Xpt → Xpt) : (d.onXpt f).pwr = d.pwr := rfl
@[simp] theorem Drive.onXpt_upd (f : Xpt → Xpt) : (d.onXpt f).upd = d.upd := rfl
@[simp] theorem Drive.onXpt_mgmt (f : Xpt → Xpt) : (d.onXpt f).mgmt = d.mgmt := rfl
@[simp] theorem Drive.onXpt_sys (f : Xpt → Xpt) : (d.onXpt f).sys = d.sys := rfl
@[simp] theorem Drive.onXpt_free (f : Xpt → Xpt) : (d.onXpt f).free = d.free := rfl

@[simp] theorem Drive.onEvr_kvx (f : Evr → Evr) : (d.onEvr f).kvx = d.kvx := rfl
@[simp] theorem Drive.onEvr_hq (f : Evr → Evr) : (d.onEvr f).hq = d.hq := rfl
@[simp] theorem Drive.onEvr_xpt (f : Evr → Evr) : (d.onEvr f).xpt = d.xpt := rfl
@[simp] theorem Drive.onEvr_evr (f : Evr → Evr) : (d.onEvr f).evr = f d.evr := rfl
@[simp] theorem Drive.onEvr_clk (f : Evr → Evr) : (d.onEvr f).clk = d.clk := rfl
@[simp] theorem Drive.onEvr_idx (f : Evr → Evr) : (d.onEvr f).idx = d.idx := rfl
@[simp] theorem Drive.onEvr_csc (f : Evr → Evr) : (d.onEvr f).csc = d.csc := rfl
@[simp] theorem Drive.onEvr_med (f : Evr → Evr) : (d.onEvr f).med = d.med := rfl
@[simp] theorem Drive.onEvr_bank (f : Evr → Evr) : (d.onEvr f).bank = d.bank := rfl
@[simp] theorem Drive.onEvr_portA (f : Evr → Evr) : (d.onEvr f).portA = d.portA := rfl
@[simp] theorem Drive.onEvr_portB (f : Evr → Evr) : (d.onEvr f).portB = d.portB := rfl
@[simp] theorem Drive.onEvr_jack (f : Evr → Evr) : (d.onEvr f).jack = d.jack := rfl
@[simp] theorem Drive.onEvr_cry (f : Evr → Evr) : (d.onEvr f).cry = d.cry := rfl
@[simp] theorem Drive.onEvr_dmc (f : Evr → Evr) : (d.onEvr f).dmc = d.dmc := rfl
@[simp] theorem Drive.onEvr_pwr (f : Evr → Evr) : (d.onEvr f).pwr = d.pwr := rfl
@[simp] theorem Drive.onEvr_upd (f : Evr → Evr) : (d.onEvr f).upd = d.upd := rfl
@[simp] theorem Drive.onEvr_mgmt (f : Evr → Evr) : (d.onEvr f).mgmt = d.mgmt := rfl
@[simp] theorem Drive.onEvr_sys (f : Evr → Evr) : (d.onEvr f).sys = d.sys := rfl
@[simp] theorem Drive.onEvr_free (f : Evr → Evr) : (d.onEvr f).free = d.free := rfl

@[simp] theorem Drive.onClk_kvx (f : Clocks → Clocks) : (d.onClk f).kvx = d.kvx := rfl
@[simp] theorem Drive.onClk_hq (f : Clocks → Clocks) : (d.onClk f).hq = d.hq := rfl
@[simp] theorem Drive.onClk_xpt (f : Clocks → Clocks) : (d.onClk f).xpt = d.xpt := rfl
@[simp] theorem Drive.onClk_evr (f : Clocks → Clocks) : (d.onClk f).evr = d.evr := rfl
@[simp] theorem Drive.onClk_clk (f : Clocks → Clocks) : (d.onClk f).clk = f d.clk := rfl
@[simp] theorem Drive.onClk_idx (f : Clocks → Clocks) : (d.onClk f).idx = d.idx := rfl
@[simp] theorem Drive.onClk_csc (f : Clocks → Clocks) : (d.onClk f).csc = d.csc := rfl
@[simp] theorem Drive.onClk_med (f : Clocks → Clocks) : (d.onClk f).med = d.med := rfl
@[simp] theorem Drive.onClk_bank (f : Clocks → Clocks) : (d.onClk f).bank = d.bank := rfl
@[simp] theorem Drive.onClk_portA (f : Clocks → Clocks) : (d.onClk f).portA = d.portA := rfl
@[simp] theorem Drive.onClk_portB (f : Clocks → Clocks) : (d.onClk f).portB = d.portB := rfl
@[simp] theorem Drive.onClk_jack (f : Clocks → Clocks) : (d.onClk f).jack = d.jack := rfl
@[simp] theorem Drive.onClk_cry (f : Clocks → Clocks) : (d.onClk f).cry = d.cry := rfl
@[simp] theorem Drive.onClk_dmc (f : Clocks → Clocks) : (d.onClk f).dmc = d.dmc := rfl
@[simp] theorem Drive.onClk_pwr (f : Clocks → Clocks) : (d.onClk f).pwr = d.pwr := rfl
@[simp] theorem Drive.onClk_upd (f : Clocks → Clocks) : (d.onClk f).upd = d.upd := rfl
@[simp] theorem Drive.onClk_mgmt (f : Clocks → Clocks) : (d.onClk f).mgmt = d.mgmt := rfl
@[simp] theorem Drive.onClk_sys (f : Clocks → Clocks) : (d.onClk f).sys = d.sys := rfl
@[simp] theorem Drive.onClk_free (f : Clocks → Clocks) : (d.onClk f).free = d.free := rfl

@[simp] theorem Drive.onIdx_kvx (f : Idx → Idx) : (d.onIdx f).kvx = d.kvx := rfl
@[simp] theorem Drive.onIdx_hq (f : Idx → Idx) : (d.onIdx f).hq = d.hq := rfl
@[simp] theorem Drive.onIdx_xpt (f : Idx → Idx) : (d.onIdx f).xpt = d.xpt := rfl
@[simp] theorem Drive.onIdx_evr (f : Idx → Idx) : (d.onIdx f).evr = d.evr := rfl
@[simp] theorem Drive.onIdx_clk (f : Idx → Idx) : (d.onIdx f).clk = d.clk := rfl
@[simp] theorem Drive.onIdx_idx (f : Idx → Idx) : (d.onIdx f).idx = f d.idx := rfl
@[simp] theorem Drive.onIdx_csc (f : Idx → Idx) : (d.onIdx f).csc = d.csc := rfl
@[simp] theorem Drive.onIdx_med (f : Idx → Idx) : (d.onIdx f).med = d.med := rfl
@[simp] theorem Drive.onIdx_bank (f : Idx → Idx) : (d.onIdx f).bank = d.bank := rfl
@[simp] theorem Drive.onIdx_portA (f : Idx → Idx) : (d.onIdx f).portA = d.portA := rfl
@[simp] theorem Drive.onIdx_portB (f : Idx → Idx) : (d.onIdx f).portB = d.portB := rfl
@[simp] theorem Drive.onIdx_jack (f : Idx → Idx) : (d.onIdx f).jack = d.jack := rfl
@[simp] theorem Drive.onIdx_cry (f : Idx → Idx) : (d.onIdx f).cry = d.cry := rfl
@[simp] theorem Drive.onIdx_dmc (f : Idx → Idx) : (d.onIdx f).dmc = d.dmc := rfl
@[simp] theorem Drive.onIdx_pwr (f : Idx → Idx) : (d.onIdx f).pwr = d.pwr := rfl
@[simp] theorem Drive.onIdx_upd (f : Idx → Idx) : (d.onIdx f).upd = d.upd := rfl
@[simp] theorem Drive.onIdx_mgmt (f : Idx → Idx) : (d.onIdx f).mgmt = d.mgmt := rfl
@[simp] theorem Drive.onIdx_sys (f : Idx → Idx) : (d.onIdx f).sys = d.sys := rfl
@[simp] theorem Drive.onIdx_free (f : Idx → Idx) : (d.onIdx f).free = d.free := rfl

@[simp] theorem Drive.onCsc_kvx (f : Csc → Csc) : (d.onCsc f).kvx = d.kvx := rfl
@[simp] theorem Drive.onCsc_hq (f : Csc → Csc) : (d.onCsc f).hq = d.hq := rfl
@[simp] theorem Drive.onCsc_xpt (f : Csc → Csc) : (d.onCsc f).xpt = d.xpt := rfl
@[simp] theorem Drive.onCsc_evr (f : Csc → Csc) : (d.onCsc f).evr = d.evr := rfl
@[simp] theorem Drive.onCsc_clk (f : Csc → Csc) : (d.onCsc f).clk = d.clk := rfl
@[simp] theorem Drive.onCsc_idx (f : Csc → Csc) : (d.onCsc f).idx = d.idx := rfl
@[simp] theorem Drive.onCsc_csc (f : Csc → Csc) : (d.onCsc f).csc = f d.csc := rfl
@[simp] theorem Drive.onCsc_med (f : Csc → Csc) : (d.onCsc f).med = d.med := rfl
@[simp] theorem Drive.onCsc_bank (f : Csc → Csc) : (d.onCsc f).bank = d.bank := rfl
@[simp] theorem Drive.onCsc_portA (f : Csc → Csc) : (d.onCsc f).portA = d.portA := rfl
@[simp] theorem Drive.onCsc_portB (f : Csc → Csc) : (d.onCsc f).portB = d.portB := rfl
@[simp] theorem Drive.onCsc_jack (f : Csc → Csc) : (d.onCsc f).jack = d.jack := rfl
@[simp] theorem Drive.onCsc_cry (f : Csc → Csc) : (d.onCsc f).cry = d.cry := rfl
@[simp] theorem Drive.onCsc_dmc (f : Csc → Csc) : (d.onCsc f).dmc = d.dmc := rfl
@[simp] theorem Drive.onCsc_pwr (f : Csc → Csc) : (d.onCsc f).pwr = d.pwr := rfl
@[simp] theorem Drive.onCsc_upd (f : Csc → Csc) : (d.onCsc f).upd = d.upd := rfl
@[simp] theorem Drive.onCsc_mgmt (f : Csc → Csc) : (d.onCsc f).mgmt = d.mgmt := rfl
@[simp] theorem Drive.onCsc_sys (f : Csc → Csc) : (d.onCsc f).sys = d.sys := rfl
@[simp] theorem Drive.onCsc_free (f : Csc → Csc) : (d.onCsc f).free = d.free := rfl

@[simp] theorem Drive.onMed_kvx (f : Med → Med) : (d.onMed f).kvx = d.kvx := rfl
@[simp] theorem Drive.onMed_hq (f : Med → Med) : (d.onMed f).hq = d.hq := rfl
@[simp] theorem Drive.onMed_xpt (f : Med → Med) : (d.onMed f).xpt = d.xpt := rfl
@[simp] theorem Drive.onMed_evr (f : Med → Med) : (d.onMed f).evr = d.evr := rfl
@[simp] theorem Drive.onMed_clk (f : Med → Med) : (d.onMed f).clk = d.clk := rfl
@[simp] theorem Drive.onMed_idx (f : Med → Med) : (d.onMed f).idx = d.idx := rfl
@[simp] theorem Drive.onMed_csc (f : Med → Med) : (d.onMed f).csc = d.csc := rfl
@[simp] theorem Drive.onMed_med (f : Med → Med) : (d.onMed f).med = f d.med := rfl
@[simp] theorem Drive.onMed_bank (f : Med → Med) : (d.onMed f).bank = d.bank := rfl
@[simp] theorem Drive.onMed_portA (f : Med → Med) : (d.onMed f).portA = d.portA := rfl
@[simp] theorem Drive.onMed_portB (f : Med → Med) : (d.onMed f).portB = d.portB := rfl
@[simp] theorem Drive.onMed_jack (f : Med → Med) : (d.onMed f).jack = d.jack := rfl
@[simp] theorem Drive.onMed_cry (f : Med → Med) : (d.onMed f).cry = d.cry := rfl
@[simp] theorem Drive.onMed_dmc (f : Med → Med) : (d.onMed f).dmc = d.dmc := rfl
@[simp] theorem Drive.onMed_pwr (f : Med → Med) : (d.onMed f).pwr = d.pwr := rfl
@[simp] theorem Drive.onMed_upd (f : Med → Med) : (d.onMed f).upd = d.upd := rfl
@[simp] theorem Drive.onMed_mgmt (f : Med → Med) : (d.onMed f).mgmt = d.mgmt := rfl
@[simp] theorem Drive.onMed_sys (f : Med → Med) : (d.onMed f).sys = d.sys := rfl
@[simp] theorem Drive.onMed_free (f : Med → Med) : (d.onMed f).free = d.free := rfl

@[simp] theorem Drive.onBank_kvx (f : Bank → Bank) : (d.onBank f).kvx = d.kvx := rfl
@[simp] theorem Drive.onBank_hq (f : Bank → Bank) : (d.onBank f).hq = d.hq := rfl
@[simp] theorem Drive.onBank_xpt (f : Bank → Bank) : (d.onBank f).xpt = d.xpt := rfl
@[simp] theorem Drive.onBank_evr (f : Bank → Bank) : (d.onBank f).evr = d.evr := rfl
@[simp] theorem Drive.onBank_clk (f : Bank → Bank) : (d.onBank f).clk = d.clk := rfl
@[simp] theorem Drive.onBank_idx (f : Bank → Bank) : (d.onBank f).idx = d.idx := rfl
@[simp] theorem Drive.onBank_csc (f : Bank → Bank) : (d.onBank f).csc = d.csc := rfl
@[simp] theorem Drive.onBank_med (f : Bank → Bank) : (d.onBank f).med = d.med := rfl
@[simp] theorem Drive.onBank_bank (f : Bank → Bank) : (d.onBank f).bank = f d.bank := rfl
@[simp] theorem Drive.onBank_portA (f : Bank → Bank) : (d.onBank f).portA = d.portA := rfl
@[simp] theorem Drive.onBank_portB (f : Bank → Bank) : (d.onBank f).portB = d.portB := rfl
@[simp] theorem Drive.onBank_jack (f : Bank → Bank) : (d.onBank f).jack = d.jack := rfl
@[simp] theorem Drive.onBank_cry (f : Bank → Bank) : (d.onBank f).cry = d.cry := rfl
@[simp] theorem Drive.onBank_dmc (f : Bank → Bank) : (d.onBank f).dmc = d.dmc := rfl
@[simp] theorem Drive.onBank_pwr (f : Bank → Bank) : (d.onBank f).pwr = d.pwr := rfl
@[simp] theorem Drive.onBank_upd (f : Bank → Bank) : (d.onBank f).upd = d.upd := rfl
@[simp] theorem Drive.onBank_mgmt (f : Bank → Bank) : (d.onBank f).mgmt = d.mgmt := rfl
@[simp] theorem Drive.onBank_sys (f : Bank → Bank) : (d.onBank f).sys = d.sys := rfl
@[simp] theorem Drive.onBank_free (f : Bank → Bank) : (d.onBank f).free = d.free := rfl

@[simp] theorem Drive.onJack_kvx (f : Jack → Jack) : (d.onJack f).kvx = d.kvx := rfl
@[simp] theorem Drive.onJack_hq (f : Jack → Jack) : (d.onJack f).hq = d.hq := rfl
@[simp] theorem Drive.onJack_xpt (f : Jack → Jack) : (d.onJack f).xpt = d.xpt := rfl
@[simp] theorem Drive.onJack_evr (f : Jack → Jack) : (d.onJack f).evr = d.evr := rfl
@[simp] theorem Drive.onJack_clk (f : Jack → Jack) : (d.onJack f).clk = d.clk := rfl
@[simp] theorem Drive.onJack_idx (f : Jack → Jack) : (d.onJack f).idx = d.idx := rfl
@[simp] theorem Drive.onJack_csc (f : Jack → Jack) : (d.onJack f).csc = d.csc := rfl
@[simp] theorem Drive.onJack_med (f : Jack → Jack) : (d.onJack f).med = d.med := rfl
@[simp] theorem Drive.onJack_bank (f : Jack → Jack) : (d.onJack f).bank = d.bank := rfl
@[simp] theorem Drive.onJack_portA (f : Jack → Jack) : (d.onJack f).portA = d.portA := rfl
@[simp] theorem Drive.onJack_portB (f : Jack → Jack) : (d.onJack f).portB = d.portB := rfl
@[simp] theorem Drive.onJack_jack (f : Jack → Jack) : (d.onJack f).jack = f d.jack := rfl
@[simp] theorem Drive.onJack_cry (f : Jack → Jack) : (d.onJack f).cry = d.cry := rfl
@[simp] theorem Drive.onJack_dmc (f : Jack → Jack) : (d.onJack f).dmc = d.dmc := rfl
@[simp] theorem Drive.onJack_pwr (f : Jack → Jack) : (d.onJack f).pwr = d.pwr := rfl
@[simp] theorem Drive.onJack_upd (f : Jack → Jack) : (d.onJack f).upd = d.upd := rfl
@[simp] theorem Drive.onJack_mgmt (f : Jack → Jack) : (d.onJack f).mgmt = d.mgmt := rfl
@[simp] theorem Drive.onJack_sys (f : Jack → Jack) : (d.onJack f).sys = d.sys := rfl
@[simp] theorem Drive.onJack_free (f : Jack → Jack) : (d.onJack f).free = d.free := rfl

@[simp] theorem Drive.onCry_kvx (f : Cry → Cry) : (d.onCry f).kvx = d.kvx := rfl
@[simp] theorem Drive.onCry_hq (f : Cry → Cry) : (d.onCry f).hq = d.hq := rfl
@[simp] theorem Drive.onCry_xpt (f : Cry → Cry) : (d.onCry f).xpt = d.xpt := rfl
@[simp] theorem Drive.onCry_evr (f : Cry → Cry) : (d.onCry f).evr = d.evr := rfl
@[simp] theorem Drive.onCry_clk (f : Cry → Cry) : (d.onCry f).clk = d.clk := rfl
@[simp] theorem Drive.onCry_idx (f : Cry → Cry) : (d.onCry f).idx = d.idx := rfl
@[simp] theorem Drive.onCry_csc (f : Cry → Cry) : (d.onCry f).csc = d.csc := rfl
@[simp] theorem Drive.onCry_med (f : Cry → Cry) : (d.onCry f).med = d.med := rfl
@[simp] theorem Drive.onCry_bank (f : Cry → Cry) : (d.onCry f).bank = d.bank := rfl
@[simp] theorem Drive.onCry_portA (f : Cry → Cry) : (d.onCry f).portA = d.portA := rfl
@[simp] theorem Drive.onCry_portB (f : Cry → Cry) : (d.onCry f).portB = d.portB := rfl
@[simp] theorem Drive.onCry_jack (f : Cry → Cry) : (d.onCry f).jack = d.jack := rfl
@[simp] theorem Drive.onCry_cry (f : Cry → Cry) : (d.onCry f).cry = f d.cry := rfl
@[simp] theorem Drive.onCry_dmc (f : Cry → Cry) : (d.onCry f).dmc = d.dmc := rfl
@[simp] theorem Drive.onCry_pwr (f : Cry → Cry) : (d.onCry f).pwr = d.pwr := rfl
@[simp] theorem Drive.onCry_upd (f : Cry → Cry) : (d.onCry f).upd = d.upd := rfl
@[simp] theorem Drive.onCry_mgmt (f : Cry → Cry) : (d.onCry f).mgmt = d.mgmt := rfl
@[simp] theorem Drive.onCry_sys (f : Cry → Cry) : (d.onCry f).sys = d.sys := rfl
@[simp] theorem Drive.onCry_free (f : Cry → Cry) : (d.onCry f).free = d.free := rfl

@[simp] theorem Drive.onDmc_kvx (f : Dmc → Dmc) : (d.onDmc f).kvx = d.kvx := rfl
@[simp] theorem Drive.onDmc_hq (f : Dmc → Dmc) : (d.onDmc f).hq = d.hq := rfl
@[simp] theorem Drive.onDmc_xpt (f : Dmc → Dmc) : (d.onDmc f).xpt = d.xpt := rfl
@[simp] theorem Drive.onDmc_evr (f : Dmc → Dmc) : (d.onDmc f).evr = d.evr := rfl
@[simp] theorem Drive.onDmc_clk (f : Dmc → Dmc) : (d.onDmc f).clk = d.clk := rfl
@[simp] theorem Drive.onDmc_idx (f : Dmc → Dmc) : (d.onDmc f).idx = d.idx := rfl
@[simp] theorem Drive.onDmc_csc (f : Dmc → Dmc) : (d.onDmc f).csc = d.csc := rfl
@[simp] theorem Drive.onDmc_med (f : Dmc → Dmc) : (d.onDmc f).med = d.med := rfl
@[simp] theorem Drive.onDmc_bank (f : Dmc → Dmc) : (d.onDmc f).bank = d.bank := rfl
@[simp] theorem Drive.onDmc_portA (f : Dmc → Dmc) : (d.onDmc f).portA = d.portA := rfl
@[simp] theorem Drive.onDmc_portB (f : Dmc → Dmc) : (d.onDmc f).portB = d.portB := rfl
@[simp] theorem Drive.onDmc_jack (f : Dmc → Dmc) : (d.onDmc f).jack = d.jack := rfl
@[simp] theorem Drive.onDmc_cry (f : Dmc → Dmc) : (d.onDmc f).cry = d.cry := rfl
@[simp] theorem Drive.onDmc_dmc (f : Dmc → Dmc) : (d.onDmc f).dmc = f d.dmc := rfl
@[simp] theorem Drive.onDmc_pwr (f : Dmc → Dmc) : (d.onDmc f).pwr = d.pwr := rfl
@[simp] theorem Drive.onDmc_upd (f : Dmc → Dmc) : (d.onDmc f).upd = d.upd := rfl
@[simp] theorem Drive.onDmc_mgmt (f : Dmc → Dmc) : (d.onDmc f).mgmt = d.mgmt := rfl
@[simp] theorem Drive.onDmc_sys (f : Dmc → Dmc) : (d.onDmc f).sys = d.sys := rfl
@[simp] theorem Drive.onDmc_free (f : Dmc → Dmc) : (d.onDmc f).free = d.free := rfl

@[simp] theorem Drive.onPwr_kvx (f : Pwr → Pwr) : (d.onPwr f).kvx = d.kvx := rfl
@[simp] theorem Drive.onPwr_hq (f : Pwr → Pwr) : (d.onPwr f).hq = d.hq := rfl
@[simp] theorem Drive.onPwr_xpt (f : Pwr → Pwr) : (d.onPwr f).xpt = d.xpt := rfl
@[simp] theorem Drive.onPwr_evr (f : Pwr → Pwr) : (d.onPwr f).evr = d.evr := rfl
@[simp] theorem Drive.onPwr_clk (f : Pwr → Pwr) : (d.onPwr f).clk = d.clk := rfl
@[simp] theorem Drive.onPwr_idx (f : Pwr → Pwr) : (d.onPwr f).idx = d.idx := rfl
@[simp] theorem Drive.onPwr_csc (f : Pwr → Pwr) : (d.onPwr f).csc = d.csc := rfl
@[simp] theorem Drive.onPwr_med (f : Pwr → Pwr) : (d.onPwr f).med = d.med := rfl
@[simp] theorem Drive.onPwr_bank (f : Pwr → Pwr) : (d.onPwr f).bank = d.bank := rfl
@[simp] theorem Drive.onPwr_portA (f : Pwr → Pwr) : (d.onPwr f).portA = d.portA := rfl
@[simp] theorem Drive.onPwr_portB (f : Pwr → Pwr) : (d.onPwr f).portB = d.portB := rfl
@[simp] theorem Drive.onPwr_jack (f : Pwr → Pwr) : (d.onPwr f).jack = d.jack := rfl
@[simp] theorem Drive.onPwr_cry (f : Pwr → Pwr) : (d.onPwr f).cry = d.cry := rfl
@[simp] theorem Drive.onPwr_dmc (f : Pwr → Pwr) : (d.onPwr f).dmc = d.dmc := rfl
@[simp] theorem Drive.onPwr_pwr (f : Pwr → Pwr) : (d.onPwr f).pwr = f d.pwr := rfl
@[simp] theorem Drive.onPwr_upd (f : Pwr → Pwr) : (d.onPwr f).upd = d.upd := rfl
@[simp] theorem Drive.onPwr_mgmt (f : Pwr → Pwr) : (d.onPwr f).mgmt = d.mgmt := rfl
@[simp] theorem Drive.onPwr_sys (f : Pwr → Pwr) : (d.onPwr f).sys = d.sys := rfl
@[simp] theorem Drive.onPwr_free (f : Pwr → Pwr) : (d.onPwr f).free = d.free := rfl

@[simp] theorem Drive.onUpd_kvx (f : Upd → Upd) : (d.onUpd f).kvx = d.kvx := rfl
@[simp] theorem Drive.onUpd_hq (f : Upd → Upd) : (d.onUpd f).hq = d.hq := rfl
@[simp] theorem Drive.onUpd_xpt (f : Upd → Upd) : (d.onUpd f).xpt = d.xpt := rfl
@[simp] theorem Drive.onUpd_evr (f : Upd → Upd) : (d.onUpd f).evr = d.evr := rfl
@[simp] theorem Drive.onUpd_clk (f : Upd → Upd) : (d.onUpd f).clk = d.clk := rfl
@[simp] theorem Drive.onUpd_idx (f : Upd → Upd) : (d.onUpd f).idx = d.idx := rfl
@[simp] theorem Drive.onUpd_csc (f : Upd → Upd) : (d.onUpd f).csc = d.csc := rfl
@[simp] theorem Drive.onUpd_med (f : Upd → Upd) : (d.onUpd f).med = d.med := rfl
@[simp] theorem Drive.onUpd_bank (f : Upd → Upd) : (d.onUpd f).bank = d.bank := rfl
@[simp] theorem Drive.onUpd_portA (f : Upd → Upd) : (d.onUpd f).portA = d.portA := rfl
@[simp] theorem Drive.onUpd_portB (f : Upd → Upd) : (d.onUpd f).portB = d.portB := rfl
@[simp] theorem Drive.onUpd_jack (f : Upd → Upd) : (d.onUpd f).jack = d.jack := rfl
@[simp] theorem Drive.onUpd_cry (f : Upd → Upd) : (d.onUpd f).cry = d.cry := rfl
@[simp] theorem Drive.onUpd_dmc (f : Upd → Upd) : (d.onUpd f).dmc = d.dmc := rfl
@[simp] theorem Drive.onUpd_pwr (f : Upd → Upd) : (d.onUpd f).pwr = d.pwr := rfl
@[simp] theorem Drive.onUpd_upd (f : Upd → Upd) : (d.onUpd f).upd = f d.upd := rfl
@[simp] theorem Drive.onUpd_mgmt (f : Upd → Upd) : (d.onUpd f).mgmt = d.mgmt := rfl
@[simp] theorem Drive.onUpd_sys (f : Upd → Upd) : (d.onUpd f).sys = d.sys := rfl
@[simp] theorem Drive.onUpd_free (f : Upd → Upd) : (d.onUpd f).free = d.free := rfl

@[simp] theorem Drive.onMgmt_kvx (f : Mgmt → Mgmt) : (d.onMgmt f).kvx = d.kvx := rfl
@[simp] theorem Drive.onMgmt_hq (f : Mgmt → Mgmt) : (d.onMgmt f).hq = d.hq := rfl
@[simp] theorem Drive.onMgmt_xpt (f : Mgmt → Mgmt) : (d.onMgmt f).xpt = d.xpt := rfl
@[simp] theorem Drive.onMgmt_evr (f : Mgmt → Mgmt) : (d.onMgmt f).evr = d.evr := rfl
@[simp] theorem Drive.onMgmt_clk (f : Mgmt → Mgmt) : (d.onMgmt f).clk = d.clk := rfl
@[simp] theorem Drive.onMgmt_idx (f : Mgmt → Mgmt) : (d.onMgmt f).idx = d.idx := rfl
@[simp] theorem Drive.onMgmt_csc (f : Mgmt → Mgmt) : (d.onMgmt f).csc = d.csc := rfl
@[simp] theorem Drive.onMgmt_med (f : Mgmt → Mgmt) : (d.onMgmt f).med = d.med := rfl
@[simp] theorem Drive.onMgmt_bank (f : Mgmt → Mgmt) : (d.onMgmt f).bank = d.bank := rfl
@[simp] theorem Drive.onMgmt_portA (f : Mgmt → Mgmt) : (d.onMgmt f).portA = d.portA := rfl
@[simp] theorem Drive.onMgmt_portB (f : Mgmt → Mgmt) : (d.onMgmt f).portB = d.portB := rfl
@[simp] theorem Drive.onMgmt_jack (f : Mgmt → Mgmt) : (d.onMgmt f).jack = d.jack := rfl
@[simp] theorem Drive.onMgmt_cry (f : Mgmt → Mgmt) : (d.onMgmt f).cry = d.cry := rfl
@[simp] theorem Drive.onMgmt_dmc (f : Mgmt → Mgmt) : (d.onMgmt f).dmc = d.dmc := rfl
@[simp] theorem Drive.onMgmt_pwr (f : Mgmt → Mgmt) : (d.onMgmt f).pwr = d.pwr := rfl
@[simp] theorem Drive.onMgmt_upd (f : Mgmt → Mgmt) : (d.onMgmt f).upd = d.upd := rfl
@[simp] theorem Drive.onMgmt_mgmt (f : Mgmt → Mgmt) : (d.onMgmt f).mgmt = f d.mgmt := rfl
@[simp] theorem Drive.onMgmt_sys (f : Mgmt → Mgmt) : (d.onMgmt f).sys = d.sys := rfl
@[simp] theorem Drive.onMgmt_free (f : Mgmt → Mgmt) : (d.onMgmt f).free = d.free := rfl

@[simp] theorem Drive.onSys_kvx (f : Sys → Sys) : (d.onSys f).kvx = d.kvx := rfl
@[simp] theorem Drive.onSys_hq (f : Sys → Sys) : (d.onSys f).hq = d.hq := rfl
@[simp] theorem Drive.onSys_xpt (f : Sys → Sys) : (d.onSys f).xpt = d.xpt := rfl
@[simp] theorem Drive.onSys_evr (f : Sys → Sys) : (d.onSys f).evr = d.evr := rfl
@[simp] theorem Drive.onSys_clk (f : Sys → Sys) : (d.onSys f).clk = d.clk := rfl
@[simp] theorem Drive.onSys_idx (f : Sys → Sys) : (d.onSys f).idx = d.idx := rfl
@[simp] theorem Drive.onSys_csc (f : Sys → Sys) : (d.onSys f).csc = d.csc := rfl
@[simp] theorem Drive.onSys_med (f : Sys → Sys) : (d.onSys f).med = d.med := rfl
@[simp] theorem Drive.onSys_bank (f : Sys → Sys) : (d.onSys f).bank = d.bank := rfl
@[simp] theorem Drive.onSys_portA (f : Sys → Sys) : (d.onSys f).portA = d.portA := rfl
@[simp] theorem Drive.onSys_portB (f : Sys → Sys) : (d.onSys f).portB = d.portB := rfl
@[simp] theorem Drive.onSys_jack (f : Sys → Sys) : (d.onSys f).jack = d.jack := rfl
@[simp] theorem Drive.onSys_cry (f : Sys → Sys) : (d.onSys f).cry = d.cry := rfl
@[simp] theorem Drive.onSys_dmc (f : Sys → Sys) : (d.onSys f).dmc = d.dmc := rfl
@[simp] theorem Drive.onSys_pwr (f : Sys → Sys) : (d.onSys f).pwr = d.pwr := rfl
@[simp] theorem Drive.onSys_upd (f : Sys → Sys) : (d.onSys f).upd = d.upd := rfl
@[simp] theorem Drive.onSys_mgmt (f : Sys → Sys) : (d.onSys f).mgmt = d.mgmt := rfl
@[simp] theorem Drive.onSys_sys (f : Sys → Sys) : (d.onSys f).sys = f d.sys := rfl
@[simp] theorem Drive.onSys_free (f : Sys → Sys) : (d.onSys f).free = d.free := rfl

@[simp] theorem Drive.onPort_kvx (p : Port) (f : PortSt → PortSt) : (d.onPort p f).kvx = d.kvx := by cases p <;> rfl
@[simp] theorem Drive.onPort_hq (p : Port) (f : PortSt → PortSt) : (d.onPort p f).hq = d.hq := by cases p <;> rfl
@[simp] theorem Drive.onPort_xpt (p : Port) (f : PortSt → PortSt) : (d.onPort p f).xpt = d.xpt := by cases p <;> rfl
@[simp] theorem Drive.onPort_evr (p : Port) (f : PortSt → PortSt) : (d.onPort p f).evr = d.evr := by cases p <;> rfl
@[simp] theorem Drive.onPort_clk (p : Port) (f : PortSt → PortSt) : (d.onPort p f).clk = d.clk := by cases p <;> rfl
@[simp] theorem Drive.onPort_idx (p : Port) (f : PortSt → PortSt) : (d.onPort p f).idx = d.idx := by cases p <;> rfl
@[simp] theorem Drive.onPort_csc (p : Port) (f : PortSt → PortSt) : (d.onPort p f).csc = d.csc := by cases p <;> rfl
@[simp] theorem Drive.onPort_med (p : Port) (f : PortSt → PortSt) : (d.onPort p f).med = d.med := by cases p <;> rfl
@[simp] theorem Drive.onPort_bank (p : Port) (f : PortSt → PortSt) : (d.onPort p f).bank = d.bank := by cases p <;> rfl
@[simp] theorem Drive.onPort_jack (p : Port) (f : PortSt → PortSt) : (d.onPort p f).jack = d.jack := by cases p <;> rfl
@[simp] theorem Drive.onPort_cry (p : Port) (f : PortSt → PortSt) : (d.onPort p f).cry = d.cry := by cases p <;> rfl
@[simp] theorem Drive.onPort_dmc (p : Port) (f : PortSt → PortSt) : (d.onPort p f).dmc = d.dmc := by cases p <;> rfl
@[simp] theorem Drive.onPort_pwr (p : Port) (f : PortSt → PortSt) : (d.onPort p f).pwr = d.pwr := by cases p <;> rfl
@[simp] theorem Drive.onPort_upd (p : Port) (f : PortSt → PortSt) : (d.onPort p f).upd = d.upd := by cases p <;> rfl
@[simp] theorem Drive.onPort_mgmt (p : Port) (f : PortSt → PortSt) : (d.onPort p f).mgmt = d.mgmt := by cases p <;> rfl
@[simp] theorem Drive.onPort_sys (p : Port) (f : PortSt → PortSt) : (d.onPort p f).sys = d.sys := by cases p <;> rfl
@[simp] theorem Drive.onPort_free (p : Port) (f : PortSt → PortSt) : (d.onPort p f).free = d.free := by cases p <;> rfl
@[simp] theorem Drive.onPort_port (p : Port) (f : PortSt → PortSt) : (d.onPort p f).port p = f (d.port p) := by cases p <;> rfl
@[simp] theorem Drive.onPort_other (p q : Port) (f : PortSt → PortSt) (h : p ≠ q) : (d.onPort p f).port q = d.port q := by
  cases p <;> cases q <;> first | rfl | exact absurd rfl h

@[simp] theorem Drive.onConn_kvx (c : Nat) (f : Conn → Conn) : (d.onConn c f).kvx = d.kvx := rfl
@[simp] theorem Drive.onConn_hq (c : Nat) (f : Conn → Conn) : (d.onConn c f).hq = d.hq := rfl
@[simp] theorem Drive.onConn_evr (c : Nat) (f : Conn → Conn) : (d.onConn c f).evr = d.evr := rfl
@[simp] theorem Drive.onConn_clk (c : Nat) (f : Conn → Conn) : (d.onConn c f).clk = d.clk := rfl
@[simp] theorem Drive.onConn_idx (c : Nat) (f : Conn → Conn) : (d.onConn c f).idx = d.idx := rfl
@[simp] theorem Drive.onConn_csc (c : Nat) (f : Conn → Conn) : (d.onConn c f).csc = d.csc := rfl
@[simp] theorem Drive.onConn_med (c : Nat) (f : Conn → Conn) : (d.onConn c f).med = d.med := rfl
@[simp] theorem Drive.onConn_bank (c : Nat) (f : Conn → Conn) : (d.onConn c f).bank = d.bank := rfl
@[simp] theorem Drive.onConn_portA (c : Nat) (f : Conn → Conn) : (d.onConn c f).portA = d.portA := rfl
@[simp] theorem Drive.onConn_portB (c : Nat) (f : Conn → Conn) : (d.onConn c f).portB = d.portB := rfl
@[simp] theorem Drive.onConn_jack (c : Nat) (f : Conn → Conn) : (d.onConn c f).jack = d.jack := rfl
@[simp] theorem Drive.onConn_cry (c : Nat) (f : Conn → Conn) : (d.onConn c f).cry = d.cry := rfl
@[simp] theorem Drive.onConn_dmc (c : Nat) (f : Conn → Conn) : (d.onConn c f).dmc = d.dmc := rfl
@[simp] theorem Drive.onConn_pwr (c : Nat) (f : Conn → Conn) : (d.onConn c f).pwr = d.pwr := rfl
@[simp] theorem Drive.onConn_upd (c : Nat) (f : Conn → Conn) : (d.onConn c f).upd = d.upd := rfl
@[simp] theorem Drive.onConn_mgmt (c : Nat) (f : Conn → Conn) : (d.onConn c f).mgmt = d.mgmt := rfl
@[simp] theorem Drive.onConn_sys (c : Nat) (f : Conn → Conn) : (d.onConn c f).sys = d.sys := rfl
@[simp] theorem Drive.onConn_free (c : Nat) (f : Conn → Conn) : (d.onConn c f).free = d.free := rfl

@[simp] theorem Drive.onSq_kvx (c : Nat) (f : Sq → Sq) : (d.onSq c f).kvx = d.kvx := rfl
@[simp] theorem Drive.onSq_xpt (c : Nat) (f : Sq → Sq) : (d.onSq c f).xpt = d.xpt := rfl
@[simp] theorem Drive.onSq_evr (c : Nat) (f : Sq → Sq) : (d.onSq c f).evr = d.evr := rfl
@[simp] theorem Drive.onSq_clk (c : Nat) (f : Sq → Sq) : (d.onSq c f).clk = d.clk := rfl
@[simp] theorem Drive.onSq_idx (c : Nat) (f : Sq → Sq) : (d.onSq c f).idx = d.idx := rfl
@[simp] theorem Drive.onSq_csc (c : Nat) (f : Sq → Sq) : (d.onSq c f).csc = d.csc := rfl
@[simp] theorem Drive.onSq_med (c : Nat) (f : Sq → Sq) : (d.onSq c f).med = d.med := rfl
@[simp] theorem Drive.onSq_bank (c : Nat) (f : Sq → Sq) : (d.onSq c f).bank = d.bank := rfl
@[simp] theorem Drive.onSq_portA (c : Nat) (f : Sq → Sq) : (d.onSq c f).portA = d.portA := rfl
@[simp] theorem Drive.onSq_portB (c : Nat) (f : Sq → Sq) : (d.onSq c f).portB = d.portB := rfl
@[simp] theorem Drive.onSq_jack (c : Nat) (f : Sq → Sq) : (d.onSq c f).jack = d.jack := rfl
@[simp] theorem Drive.onSq_cry (c : Nat) (f : Sq → Sq) : (d.onSq c f).cry = d.cry := rfl
@[simp] theorem Drive.onSq_dmc (c : Nat) (f : Sq → Sq) : (d.onSq c f).dmc = d.dmc := rfl
@[simp] theorem Drive.onSq_pwr (c : Nat) (f : Sq → Sq) : (d.onSq c f).pwr = d.pwr := rfl
@[simp] theorem Drive.onSq_upd (c : Nat) (f : Sq → Sq) : (d.onSq c f).upd = d.upd := rfl
@[simp] theorem Drive.onSq_mgmt (c : Nat) (f : Sq → Sq) : (d.onSq c f).mgmt = d.mgmt := rfl
@[simp] theorem Drive.onSq_sys (c : Nat) (f : Sq → Sq) : (d.onSq c f).sys = d.sys := rfl
@[simp] theorem Drive.onSq_free (c : Nat) (f : Sq → Sq) : (d.onSq c f).free = d.free := rfl

@[simp] theorem Drive.onCq_kvx (c : Nat) (f : Cq → Cq) : (d.onCq c f).kvx = d.kvx := rfl
@[simp] theorem Drive.onCq_xpt (c : Nat) (f : Cq → Cq) : (d.onCq c f).xpt = d.xpt := rfl
@[simp] theorem Drive.onCq_evr (c : Nat) (f : Cq → Cq) : (d.onCq c f).evr = d.evr := rfl
@[simp] theorem Drive.onCq_clk (c : Nat) (f : Cq → Cq) : (d.onCq c f).clk = d.clk := rfl
@[simp] theorem Drive.onCq_idx (c : Nat) (f : Cq → Cq) : (d.onCq c f).idx = d.idx := rfl
@[simp] theorem Drive.onCq_csc (c : Nat) (f : Cq → Cq) : (d.onCq c f).csc = d.csc := rfl
@[simp] theorem Drive.onCq_med (c : Nat) (f : Cq → Cq) : (d.onCq c f).med = d.med := rfl
@[simp] theorem Drive.onCq_bank (c : Nat) (f : Cq → Cq) : (d.onCq c f).bank = d.bank := rfl
@[simp] theorem Drive.onCq_portA (c : Nat) (f : Cq → Cq) : (d.onCq c f).portA = d.portA := rfl
@[simp] theorem Drive.onCq_portB (c : Nat) (f : Cq → Cq) : (d.onCq c f).portB = d.portB := rfl
@[simp] theorem Drive.onCq_jack (c : Nat) (f : Cq → Cq) : (d.onCq c f).jack = d.jack := rfl
@[simp] theorem Drive.onCq_cry (c : Nat) (f : Cq → Cq) : (d.onCq c f).cry = d.cry := rfl
@[simp] theorem Drive.onCq_dmc (c : Nat) (f : Cq → Cq) : (d.onCq c f).dmc = d.dmc := rfl
@[simp] theorem Drive.onCq_pwr (c : Nat) (f : Cq → Cq) : (d.onCq c f).pwr = d.pwr := rfl
@[simp] theorem Drive.onCq_upd (c : Nat) (f : Cq → Cq) : (d.onCq c f).upd = d.upd := rfl
@[simp] theorem Drive.onCq_mgmt (c : Nat) (f : Cq → Cq) : (d.onCq c f).mgmt = d.mgmt := rfl
@[simp] theorem Drive.onCq_sys (c : Nat) (f : Cq → Cq) : (d.onCq c f).sys = d.sys := rfl
@[simp] theorem Drive.onCq_free (c : Nat) (f : Cq → Cq) : (d.onCq c f).free = d.free := rfl

@[simp] theorem Drive.onCtx_hq (c o : Nat) (f : Ctx → Ctx) : (d.onCtx c o f).hq = d.hq := rfl
@[simp] theorem Drive.onCtx_xpt (c o : Nat) (f : Ctx → Ctx) : (d.onCtx c o f).xpt = d.xpt := rfl
@[simp] theorem Drive.onCtx_evr (c o : Nat) (f : Ctx → Ctx) : (d.onCtx c o f).evr = d.evr := rfl
@[simp] theorem Drive.onCtx_clk (c o : Nat) (f : Ctx → Ctx) : (d.onCtx c o f).clk = d.clk := rfl
@[simp] theorem Drive.onCtx_idx (c o : Nat) (f : Ctx → Ctx) : (d.onCtx c o f).idx = d.idx := rfl
@[simp] theorem Drive.onCtx_csc (c o : Nat) (f : Ctx → Ctx) : (d.onCtx c o f).csc = d.csc := rfl
@[simp] theorem Drive.onCtx_med (c o : Nat) (f : Ctx → Ctx) : (d.onCtx c o f).med = d.med := rfl
@[simp] theorem Drive.onCtx_bank (c o : Nat) (f : Ctx → Ctx) : (d.onCtx c o f).bank = d.bank := rfl
@[simp] theorem Drive.onCtx_portA (c o : Nat) (f : Ctx → Ctx) : (d.onCtx c o f).portA = d.portA := rfl
@[simp] theorem Drive.onCtx_portB (c o : Nat) (f : Ctx → Ctx) : (d.onCtx c o f).portB = d.portB := rfl
@[simp] theorem Drive.onCtx_jack (c o : Nat) (f : Ctx → Ctx) : (d.onCtx c o f).jack = d.jack := rfl
@[simp] theorem Drive.onCtx_cry (c o : Nat) (f : Ctx → Ctx) : (d.onCtx c o f).cry = d.cry := rfl
@[simp] theorem Drive.onCtx_dmc (c o : Nat) (f : Ctx → Ctx) : (d.onCtx c o f).dmc = d.dmc := rfl
@[simp] theorem Drive.onCtx_pwr (c o : Nat) (f : Ctx → Ctx) : (d.onCtx c o f).pwr = d.pwr := rfl
@[simp] theorem Drive.onCtx_upd (c o : Nat) (f : Ctx → Ctx) : (d.onCtx c o f).upd = d.upd := rfl
@[simp] theorem Drive.onCtx_mgmt (c o : Nat) (f : Ctx → Ctx) : (d.onCtx c o f).mgmt = d.mgmt := rfl
@[simp] theorem Drive.onCtx_sys (c o : Nat) (f : Ctx → Ctx) : (d.onCtx c o f).sys = d.sys := rfl
@[simp] theorem Drive.onCtx_free (c o : Nat) (f : Ctx → Ctx) : (d.onCtx c o f).free = d.free := rfl

end Sys2Proof.Machine
end

