-- ==== Sys2Proof/Laws/Tables.lean ====
section
/-! SUPPORT. Sparse tables, lists changed at one place, and small numbers as bytes. -/

namespace Sys2Proof.Machine

theorem find?_map_key {α : Type} (t : List (Nat × α)) (k j : Nat) (v : α) :
    ((t.map fun p => if p.1 == k then (k, v) else p).find? fun p => p.1 == j)
      = (t.find? fun p => p.1 == j).map fun p => if p.1 == k then (k, v) else p := by
  rw [List.find?_map]
  congr 1
  congr 1
  funext p
  by_cases h : p.1 = k <;> simp [h]

/-- A table after one entry is set: the new value there, the former values elsewhere. -/
theorem lookupD_setKey {α : Type} (t : List (Nat × α)) (k j : Nat) (v dflt : α) :
    lookupD (setKey t k v) j dflt = if j = k then v else lookupD t j dflt := by
  unfold setKey lookupD
  by_cases h : (t.any fun p => p.1 == k) = true
  · rw [if_pos h, find?_map_key]
    obtain ⟨p, hp, hk⟩ := List.any_eq_true.1 h
    by_cases hj : j = k
    · subst hj
      cases hf : t.find? fun p => p.1 == j with
      | none => exact absurd hk (by simpa using List.find?_eq_none.1 hf p hp)
      | some q =>
        have := List.find?_some hf
        simp_all
    · cases hf : t.find? fun p => p.1 == j with
      | none => simp [hj]
      | some q =>
        have := List.find?_some hf
        have hq : q.1 ≠ k := by intro h; simp_all
        simp [hj, hq]
  · rw [if_neg h, List.find?_append]
    by_cases hj : j = k
    · subst hj
      have : (t.find? fun p => p.1 == j) = none := by
        rw [List.find?_eq_none]
        intro p hp
        simp only [List.any_eq_true, not_exists, not_and] at h
        simpa using h p hp
      simp [this]
    · cases hf : t.find? fun p => p.1 == j with
      | none => simp [hj, Ne.symm hj]
      | some q => simp [hj]

/-- The first element that satisfies `p` after a change that keeps `p`. -/
theorem find?_updFirst {α : Type} (p : α → Bool) (f : α → α) (l : List α) (h : ∀ x, p x = true → p (f x) = true) :
    (updFirst p f l).find? p = (l.find? p).map f := by
  induction l with
  | nil => rfl
  | cons x xs ih =>
    by_cases hx : p x = true
    · simp [updFirst, hx, h x hx]
    · simp [updFirst, hx, ih]

/-- An element that another predicate finds is not touched when no element satisfies both. -/
theorem find?_updFirst_other {α : Type} (p q : α → Bool) (f : α → α) (l : List α) (h : ∀ x, p x = true → q x = false)
    (k : ∀ x, p x = true → q (f x) = false) : (updFirst p f l).find? q = l.find? q := by
  induction l with
  | nil => rfl
  | cons x xs ih =>
    by_cases hx : p x = true
    · simp [updFirst, hx, h x hx, k x hx]
    · simp [updFirst, hx, ih, List.find?_cons]

end Sys2Proof.Machine
end

