-- ==== Sys2Proof/Laws/Events.lean ====
section
/-! SUPPORT. What sending, posting and the occurrence of an event can do: which parts of the drive they leave alone, and what happens
to the counts. -/

namespace Sys2Proof.Machine

/-! The frame relation. -/

theorem Drive.Agrees.refl (d : Drive) (p : Part) : d.Agrees d p := by cases p <;> rfl

theorem Drive.Agrees.trans {a b c : Drive} {p : Part} (h : a.Agrees b p) (k : b.Agrees c p) : a.Agrees c p := by
  cases p <;> exact Eq.trans h k

theorem Drive.SameBut.refl (l : List Part) (d : Drive) : d.SameBut l d := ⟨fun p _ => .refl d p⟩

theorem Drive.SameBut.trans {l : List Part} {a b c : Drive} (h : a.SameBut l b) (k : b.SameBut l c) : a.SameBut l c :=
  ⟨fun p hp => (h.agrees p hp).trans (k.agrees p hp)⟩

/-- A frame with fewer parts is a frame with more. -/
theorem Drive.SameBut.mono {l m : List Part} {a b : Drive} (h : a.SameBut l b) (k : ∀ p ∈ l, p ∈ m) : a.SameBut m b :=
  ⟨fun p hp => h.agrees p fun q => hp (k p q)⟩

theorem Drive.SameBut.foldl {α : Type} {l : List Part} (f : Drive → α → Drive) (h : ∀ (d : Drive) x, d.SameBut l (f d x)) (xs : List α) (d : Drive) :
    d.SameBut l (xs.foldl f d) := by
  induction xs generalizing d with
  | nil => exact .refl l d
  | cons x xs ih => exact (h d x).trans (ih _)

theorem Drive.onXpt_same (f : Xpt → Xpt) (d : Drive) : d.SameBut [.xpt] (d.onXpt f) := by
  refine ⟨fun p hp => ?_⟩; cases p <;> first | rfl | exact absurd (by simp) hp

theorem Drive.onHq_same (f : Hq → Hq) (d : Drive) : d.SameBut [.hq] (d.onHq f) := by
  refine ⟨fun p hp => ?_⟩; cases p <;> first | rfl | exact absurd (by simp) hp

theorem Drive.onEvr_same (f : Evr → Evr) (d : Drive) : d.SameBut [.evr] (d.onEvr f) := by
  refine ⟨fun p hp => ?_⟩; cases p <;> first | rfl | exact absurd (by simp) hp

/-! Requests, completion entries and event CQEs touch connections and queues alone. -/

theorem Drive.release_same (c : Nat) (d : Drive) : d.SameBut [.xpt] (d.release c) := by
  unfold Drive.release
  split
  · exact .refl _ d
  · simp only
    split
    · exact .refl _ d
    · exact d.onXpt_same _

/-- A packet that connection `c` sends touches the connections alone. -/
theorem Drive.sendPacket_same (c : Nat) (p : Packet) (d : Drive) : d.SameBut [.xpt] (d.sendPacket c p) :=
  (d.onXpt_same _).trans (Drive.release_same ..)

theorem Drive.send_same (c : Nat) (kind : ReqKind) (what : ReqFor) (addr rkey : Nat) (data : Bytes) (d : Drive) :
    d.SameBut [.xpt] (d.send c kind what addr rkey data) := by
  unfold Drive.send
  exact (d.onXpt_same _).trans (Drive.release_same ..)

/-- Connections and queues. -/
def linkParts : List Part := [.xpt, .hq]

theorem Drive.send_link (c : Nat) (kind : ReqKind) (what : ReqFor) (addr rkey : Nat) (data : Bytes) (d : Drive) :
    d.SameBut linkParts (d.send c kind what addr rkey data) := (d.send_same ..).mono (by simp [linkParts])

theorem Drive.onCq_link (q : Nat) (f : Cq → Cq) (d : Drive) : d.SameBut linkParts (d.onCq q f) :=
  (Drive.onHq_same _ d).mono (by simp [linkParts])

theorem Drive.onConn_link (c : Nat) (f : Conn → Conn) (d : Drive) : d.SameBut linkParts (d.onConn c f) :=
  (Drive.onXpt_same _ d).mono (by simp [linkParts])

theorem Drive.notify_link (q reason : Nat) (d : Drive) : d.SameBut linkParts (d.notify q reason) := by
  unfold Drive.notify
  split
  · exact .refl _ d
  · split
    · exact (d.send_link ..).trans (Drive.onCq_link ..)
    · exact .refl _ d

theorem Drive.appendCqe_link (q : Nat) (b : Bytes) (o : Option (Nat × Nat)) (d : Drive) : d.SameBut linkParts (d.appendCqe q b o) := by
  unfold Drive.appendCqe
  split
  · exact .refl _ d
  · exact ((d.send_link ..).trans (Drive.onCq_link ..)).trans ((Drive.onHq_same _ _).mono (by simp [linkParts]))

/-! Occurrences. -/

theorem Drive.SameBut.events {a b : Drive} (h : a.SameBut linkParts b) : a.SameBut eventParts b :=
  h.mono (by simp [linkParts, eventParts])

theorem Drive.occur_same (n : Nat) (b : Bytes) (d : Drive) : d.SameBut [.evr] (d.occur n b).2 := by
  unfold Drive.occur
  split
  · exact .refl _ d
  · refine ⟨fun p hp => ?_⟩; cases p <;> first | rfl | exact absurd (by simp) hp

theorem Drive.occur_event (n : Nat) (b : Bytes) (d : Drive) : d.SameBut eventParts (d.occur n b).2 :=
  (d.occur_same n b).mono (by simp [eventParts])

theorem Drive.postEvent_event (c : Nat) (b : Bytes) (d : Drive) : d.SameBut eventParts (d.postEvent c b) := by
  unfold Drive.postEvent
  split
  · exact .refl _ d
  · split
    · exact .refl _ d
    · split
      · exact .refl _ d
      · split
        · exact ((d.appendCqe_link ..).trans (Drive.notify_link ..)).events
        · split
          · exact (d.onConn_link ..).events
          · exact (d.onCq_link ..).events.trans (Drive.occur_event ..)

theorem Drive.raiseOne_event (n : Nat) (b : Bytes) (d : Drive) : d.SameBut eventParts (d.raiseOne n b) := by
  unfold Drive.raiseOne
  simp only
  split
  · exact (d.occur_event n b).trans (Drive.SameBut.foldl _ (fun d c => d.postEvent_event c _) _ _)
  · exact d.occur_event n b

theorem Drive.liftFreeze_event (lift cause : Nat) (d : Drive) : d.SameBut eventParts (d.liftFreeze lift cause) := by
  unfold Drive.liftFreeze
  split
  · exact ((d.onEvr_same _).mono (by simp [eventParts])).trans (Drive.raiseOne_event ..)
  · exact .refl _ d

theorem Drive.frontCheck_event (d : Drive) : d.SameBut eventParts d.frontCheck := by
  unfold Drive.frontCheck
  split
  · exact d.liftFreeze_event 2 1
  · exact .refl _ d

/-- An occurrence of a drive-scope event changes the event sources, the recorder, connections and queues alone. -/
theorem Drive.raise_event (n : Nat) (b : Bytes) (d : Drive) : d.SameBut eventParts (d.raise n b) :=
  (d.raiseOne_event n b).trans (Drive.frontCheck_event _)

theorem Drive.raiseConn_event (n c q : Nat) (b : Bytes) (d : Drive) : d.SameBut eventParts (d.raiseConn n c q b) := by
  unfold Drive.raiseConn
  simp only
  split
  · exact ((d.occur_event n b).trans (Drive.postEvent_event ..)).trans (Drive.frontCheck_event _)
  · exact (d.occur_event n b).trans (Drive.frontCheck_event _)

/-! Counts. -/

/-- Counts depend on the event sources alone. -/
theorem Drive.events_of_link {m : Nat} {a b : Drive} (h : a.SameBut linkParts b) : b.events m = a.events m := by
  have : a.evr = b.evr := h.agrees .evr (by simp [linkParts])
  simp [Drive.events, this]

/-- A record leaves the sources alone. -/
@[simp] theorem Evr.record_srcs (life wall : Nat) (parked : Bool) (src sev count : Nat) (data : Bytes) (e : Evr) :
    (e.record life wall parked src sev count data).srcs = e.srcs := by
  unfold Evr.record
  split <;> rfl

theorem Evr.ite_record_srcs (c : Prop) [Decidable c] (life wall : Nat) (parked : Bool) (src sev count : Nat) (data : Bytes) (e : Evr) :
    (if c then e.record life wall parked src sev count data else e).srcs = e.srcs := by
  split
  · exact Evr.record_srcs ..
  · rfl

/-- One occurrence counts once, in its own source. -/
theorem Drive.occur_events (m n : Nat) (b : Bytes) (d : Drive) (h : (catalogue n).isSome) :
    (d.occur n b).2.events m = if m = n then wrap32 (d.events m + 1) else d.events m := by
  unfold Drive.occur
  cases hc : catalogue n with
  | none => simp [hc] at h
  | some x =>
    simp only [Drive.events, Evr.src]
    by_cases hm : m = n <;> simp [hm, Evr.ite_record_srcs, lookupD_setKey]

theorem Drive.postEvent_events (m c : Nat) (b : Bytes) (d : Drive) (h : m ≠ 0x094) : (d.postEvent c b).events m = d.events m := by
  unfold Drive.postEvent
  split
  · rfl
  · split
    · rfl
    · split
      · rfl
      · split
        · exact Drive.events_of_link ((d.appendCqe_link ..).trans (Drive.notify_link ..))
        · split
          · exact Drive.events_of_link (d.onConn_link ..)
          · rw [Drive.occur_events _ _ _ _ (by decide), if_neg h]
            exact Drive.events_of_link (d.onCq_link ..)

theorem Drive.foldl_events {α : Type} (m : Nat) (f : Drive → α → Drive) (h : ∀ (d : Drive) x, (f d x).events m = d.events m)
    (xs : List α) (d : Drive) : (xs.foldl f d).events m = d.events m := by
  induction xs generalizing d with
  | nil => rfl
  | cons x xs ih => rw [List.foldl_cons, ih, h]

theorem Drive.raiseOne_events (m n : Nat) (b : Bytes) (d : Drive) (hn : (catalogue n).isSome) (h : m ≠ 0x094) :
    (d.raiseOne n b).events m = if m = n then wrap32 (d.events m + 1) else d.events m := by
  unfold Drive.raiseOne
  simp only
  split
  · rw [Drive.foldl_events m _ (fun d c => d.postEvent_events m c _ h), d.occur_events m n b hn]
  · exact d.occur_events m n b hn

theorem Drive.liftFreeze_events (m lift cause : Nat) (d : Drive) (h : m ≠ 0x094) (k : m ≠ 0x1F1) :
    (d.liftFreeze lift cause).events m = d.events m := by
  unfold Drive.liftFreeze
  split
  · rw [Drive.raiseOne_events m 0x1F1 _ _ (by decide) h, if_neg k]; rfl
  · rfl

theorem Drive.frontCheck_events (m : Nat) (d : Drive) (h : m ≠ 0x094) (k : m ≠ 0x1F1) : d.frontCheck.events m = d.events m := by
  unfold Drive.frontCheck
  split
  · exact d.liftFreeze_events m 2 1 h k
  · rfl

/-- An occurrence of a drive-scope event counts once in its own source. The counts of `HQ_EVLOST` and `EVR_FREEZE_LIFT` may move with
it. -/
theorem Drive.raise_events (m n : Nat) (b : Bytes) (d : Drive) (hn : (catalogue n).isSome) (h : m ≠ 0x094) (k : m ≠ 0x1F1) :
    (d.raise n b).events m = if m = n then wrap32 (d.events m + 1) else d.events m := by
  unfold Drive.raise
  rw [Drive.frontCheck_events m _ h k, d.raiseOne_events m n b hn h]

theorem Drive.raiseConn_events (m n c q : Nat) (b : Bytes) (d : Drive) (hn : (catalogue n).isSome) (h : m ≠ 0x094) (k : m ≠ 0x1F1) :
    (d.raiseConn n c q b).events m = if m = n then wrap32 (d.events m + 1) else d.events m := by
  unfold Drive.raiseConn
  simp only
  rw [Drive.frontCheck_events m _ h k]
  split
  · rw [Drive.postEvent_events _ _ _ _ h, d.occur_events m n b hn]
  · exact d.occur_events m n b hn

end Sys2Proof.Machine
end

