-- ==== Sys2Proof/Laws/Flash.lean ====
section
/-! SUPPORT. The configuration flash: every operation on it keeps the canonical form, a write is read back, and the fuses never
fall. -/

namespace Sys2Proof.Machine

/-- Every cell lies above `a`. -/
def cellsAbove (a : Nat) (m : List Host.Cell) : Prop := ∀ c ∈ m, a < c.1

/-- The canonical form, as a property of head and rest. -/
theorem cellsWf_cons (c : Host.Cell) (m : List Host.Cell) :
    cellsWf (c :: m) = true ↔ c.2 ≠ 0xFF ∧ cellsAbove c.1 m ∧ cellsWf m = true := by
  induction m generalizing c with
  | nil => simp [cellsWf, cellsAbove]
  | cons e es ih =>
    have h := ih e
    simp only [cellsWf, Bool.and_eq_true, bne_iff_ne, ne_eq, decide_eq_true_eq]
    constructor
    · rintro ⟨⟨h1, h2⟩, h3⟩
      refine ⟨h1, ?_, h3⟩
      intro x hx
      rcases List.mem_cons.1 hx with rfl | hx
      · exact h2
      · exact Nat.lt_trans h2 ((h.1 h3).2.1 x hx)
    · rintro ⟨h1, h2, h3⟩
      exact ⟨⟨h1, h2 e (List.mem_cons_self ..)⟩, h3⟩

/-- What a set may add: the address itself. -/
theorem flashSet_mem (a : Nat) (b : Byte) (m : List Host.Cell) (c : Host.Cell) (h : c ∈ flashSet a b m) :
    c ∈ m ∨ c = (a, b) ∧ b ≠ 0xFF := by
  induction m with
  | nil =>
    simp only [flashSet] at h
    split at h
    · simp at h
    · simp at h; exact .inr ⟨h, ‹_›⟩
  | cons e es ih =>
    simp only [flashSet] at h
    split at h
    · rcases List.mem_cons.1 h with rfl | h
      · simp
      · rcases ih h with h | h
        · exact .inl (List.mem_cons_of_mem _ h)
        · exact .inr h
    · split at h
      · split at h
        · exact .inl (List.mem_cons_of_mem _ h)
        · rcases List.mem_cons.1 h with rfl | h
          · exact .inr ⟨rfl, ‹_›⟩
          · exact .inl (List.mem_cons_of_mem _ h)
      · split at h
        · exact .inl h
        · rcases List.mem_cons.1 h with rfl | h
          · exact .inr ⟨rfl, ‹_›⟩
          · exact .inl h

/-- A set keeps the canonical form. -/
theorem flashSet_wf (a : Nat) (b : Byte) (m : List Host.Cell) (h : cellsWf m = true) : cellsWf (flashSet a b m) = true := by
  induction m with
  | nil =>
    simp only [flashSet]
    split
    · rfl
    · simpa [cellsWf] using ‹¬b = 0xFF›
  | cons e es ih =>
    obtain ⟨h1, h2, h3⟩ := (cellsWf_cons e es).1 h
    simp only [flashSet]
    split
    · refine (cellsWf_cons _ _).2 ⟨h1, ?_, ih h3⟩
      intro x hx
      rcases flashSet_mem a b es x hx with hx | ⟨rfl, -⟩
      · exact h2 x hx
      · assumption
    · split
      · split
        · exact h3
        · refine (cellsWf_cons _ _).2 ⟨‹_›, ?_, h3⟩
          intro x hx
          have := h2 x hx
          simp only at *
          omega
      · split
        · exact h
        · refine (cellsWf_cons _ _).2 ⟨‹_›, ?_, h⟩
          intro x hx
          rcases List.mem_cons.1 hx with rfl | hx
          · simp only; omega
          · have := h2 x hx
            simp only; omega

/-- Cells below an address are not read there. -/
theorem flashByte_above (a : Nat) (m : List Host.Cell) (h : cellsAbove a m) : flashByte a m = 0xFF := by
  induction m with
  | nil => rfl
  | cons e es ih =>
    have h1 := h e (List.mem_cons_self ..)
    simp only [flashByte]
    rw [if_neg (by omega)]
    exact ih fun x hx => h x (List.mem_cons_of_mem _ hx)

/-- A byte read after a set: the byte set at its address, the former byte elsewhere. -/
theorem flashByte_set (a x : Nat) (b : Byte) (m : List Host.Cell) (h : cellsWf m = true) :
    flashByte x (flashSet a b m) = if x = a then b else flashByte x m := by
  induction m with
  | nil =>
    simp only [flashSet]
    split
    · split
      · exact (by assumption : b = 0xFF).symm
      · rfl
    · by_cases hx : x = a
      · simp [flashByte, hx]
      · rw [if_neg hx]
        simp only [flashByte]
        rw [if_neg fun h => hx h.symm]
  | cons e es ih =>
    obtain ⟨h1, h2, h3⟩ := (cellsWf_cons e es).1 h
    simp only [flashSet]
    split
    · simp only [flashByte, ih h3]
      split
      · rw [if_neg (by omega)]
      · rfl
    · split
      · split
        · by_cases hx : x = a
          · rw [if_pos hx, flashByte_above x es (by intro y hy; have := h2 y hy; omega)]
            exact (by assumption : b = 0xFF).symm
          · rw [if_neg hx]
            simp only [flashByte]
            rw [if_neg (by omega)]
        · simp only [flashByte]
          by_cases hx : x = a
          · simp [hx]
          · rw [if_neg (by omega), if_neg hx, if_neg (by omega)]
      · split
        · by_cases hx : x = a
          · rw [if_pos hx, flashByte_above x (e :: es)]
            · exact (by assumption : b = 0xFF).symm
            · intro y hy
              rcases List.mem_cons.1 hy with rfl | hy
              · omega
              · have := h2 y hy; omega
          · rw [if_neg hx]
        · by_cases hx : x = a
          · simp [flashByte, hx]
          · rw [if_neg hx, flashByte, if_neg (by simpa using fun h => hx h.symm)]

/-- Filtering keeps the canonical form. -/
theorem cellsWf_filter (p : Host.Cell → Bool) (m : List Host.Cell) (h : cellsWf m = true) : cellsWf (m.filter p) = true := by
  induction m with
  | nil => rfl
  | cons e es ih =>
    obtain ⟨h1, h2, h3⟩ := (cellsWf_cons e es).1 h
    rw [List.filter_cons]
    split
    · exact (cellsWf_cons _ _).2 ⟨h1, fun x hx => h2 x ((List.mem_filter.1 hx).1), ih h3⟩
    · exact ih h3

/-- Setting many bytes keeps the canonical form. -/
theorem cellsWf_sets (a : Nat) (l : List (Nat × Byte)) (m : List Host.Cell) (h : cellsWf m = true) :
    cellsWf (l.foldl (fun m x => flashSet (a + x.1) x.2 m) m) = true := by
  induction l generalizing m with
  | nil => exact h
  | cons x xs ih => exact ih _ (flashSet_wf _ _ _ h)

theorem Nv.wf_iff (v : Nv) : v.wf = true ↔ cellsWf v.flash = true ∧ v.fuses ≤ 256 := by
  simp [Nv.wf]

theorem Nv.write_wf (a : Nat) (bs : Bytes) (v : Nv) (h : v.wf = true) : (v.write a bs).wf = true := by
  rw [Nv.wf_iff] at h ⊢
  exact ⟨cellsWf_sets _ _ _ h.1, h.2⟩

theorem Nv.erase_wf (a n : Nat) (v : Nv) (h : v.wf = true) : (v.erase a n).wf = true := by
  rw [Nv.wf_iff] at h ⊢
  exact ⟨cellsWf_filter _ _ h.1, h.2⟩

theorem Nv.blow_wf (l : Nat) (v : Nv) (h : v.wf = true) : (v.blow l).wf = true := by
  rw [Nv.wf_iff] at h ⊢
  exact ⟨h.1, Nat.min_le_left _ _⟩

theorem Nv.writeBoot_wf (r : BootRec) (v : Nv) (h : v.wf = true) : (v.writeBoot r).wf = true :=
  Nv.write_wf _ _ _ (Nv.erase_wf _ _ _ h)

theorem Nv.download_wf (off : Nat) (data : Bytes) (first : Bool) (v : Nv) (h : v.wf = true) : (v.download off data first).wf = true := by
  refine Nv.write_wf _ _ _ (Nv.erase_wf _ _ _ ?_)
  split
  · exact Nv.erase_wf _ _ _ h
  · exact h

theorem Nv.writeConfig_wf (f : Nat) (items : Bytes) (v : Nv) (h : v.wf = true) : (v.writeConfig f items).wf = true :=
  Nv.write_wf _ _ _ (Nv.erase_wf _ _ _ h)

theorem Nv.birth_wf (r : EvRec) (v : Nv) (h : v.wf = true) : (v.birth r).wf = true := Nv.write_wf _ _ _ h

theorem Nv.bootFirst_wf (v : Nv) (h : v.wf = true) : v.bootFirst.2.2.wf = true := by
  unfold Nv.bootFirst
  simp only
  split
  · split
    · exact Nv.writeBoot_wf _ _ h
    · exact Nv.writeBoot_wf _ _ h
  · exact h

theorem Nv.bootRom_wf (v : Nv) (h : v.wf = true) : v.bootRom.2.2.wf = true := by
  unfold Nv.bootRom
  simp only
  split
  · exact Nv.bootFirst_wf _ h
  · split
    · exact Nv.writeBoot_wf _ _ (Nv.bootFirst_wf _ h)
    · exact Nv.bootFirst_wf _ h

/-! The fuses: blowing never lowers the count, nothing else changes it. -/

/-- Setting many bytes leaves every other address alone. -/
theorem flashByte_sets_other (a x : Nat) (l : List (Nat × Byte)) (m : List Host.Cell) (h : cellsWf m = true)
    (o : ∀ y ∈ l, x ≠ a + y.1) : flashByte x (l.foldl (fun m y => flashSet (a + y.1) y.2 m) m) = flashByte x m := by
  induction l generalizing m with
  | nil => rfl
  | cons y ys ih =>
    rw [List.foldl_cons, ih _ (flashSet_wf _ _ _ h) fun z hz => o z (List.mem_cons_of_mem _ hz), flashByte_set _ _ _ _ h,
      if_neg (o y (List.mem_cons_self ..))]

/-- Setting many bytes at distinct places sets each of them. -/
theorem flashByte_sets (a i : Nat) (b : Byte) (l : List (Nat × Byte)) (m : List Host.Cell) (h : cellsWf m = true)
    (n : (l.map (·.1)).Nodup) (k : (i, b) ∈ l) : flashByte (a + i) (l.foldl (fun m y => flashSet (a + y.1) y.2 m) m) = b := by
  induction l generalizing m with
  | nil => cases k
  | cons y ys ih =>
    rw [List.map_cons, List.nodup_cons] at n
    rcases List.mem_cons.1 k with rfl | k
    · rw [List.foldl_cons, flashByte_sets_other _ _ _ _ (flashSet_wf _ _ _ h), flashByte_set _ _ _ _ h, if_pos rfl]
      intro z hz e
      exact n.1 (List.mem_map.2 ⟨z, hz, by omega⟩)
    · exact ih _ (flashSet_wf _ _ _ h) n.2 k

theorem numbered_nodup {α : Type} (l : List α) : ((numbered l).map (·.1)).Nodup := by
  rw [numbered, ← List.unzip_fst, List.unzip_zip (by simp)]
  exact List.nodup_range

/-- A written byte is read back. -/
theorem Nv.flashByte_write (a i : Nat) (bs : Bytes) (v : Nv) (h : v.wf = true) (hi : i < bs.length) :
    flashByte (a + i) (v.write a bs).flash = bs[i] := by
  refine flashByte_sets a i _ _ _ ((Nv.wf_iff v).1 h).1 (numbered_nodup bs) ?_
  rw [numbered, List.mem_iff_getElem]
  exact ⟨i, by simpa using hi, by simp⟩

/-- A write leaves every byte outside it alone. -/
theorem Nv.flashByte_write_other (a x : Nat) (bs : Bytes) (v : Nv) (h : v.wf = true) (o : x < a ∨ a + bs.length ≤ x) :
    flashByte x (v.write a bs).flash = flashByte x v.flash := by
  refine flashByte_sets_other a x _ _ ((Nv.wf_iff v).1 h).1 fun y hy => ?_
  have := List.mem_range.1 (List.of_mem_zip hy).1
  omega

/-- What is written is read back. -/
theorem Nv.read_write (a : Nat) (bs : Bytes) (v : Nv) (h : v.wf = true) : (v.write a bs).read a bs.length = bs := by
  refine List.ext_getElem (by simp [Nv.read]) fun i h1 h2 => ?_
  simp only [Nv.read, List.getElem_map, List.getElem_range]
  exact Nv.flashByte_write a i bs v h h2

@[simp] theorem Nv.write_fuses (a : Nat) (bs : Bytes) (v : Nv) : (v.write a bs).fuses = v.fuses := rfl
@[simp] theorem Nv.erase_fuses (a n : Nat) (v : Nv) : (v.erase a n).fuses = v.fuses := rfl
@[simp] theorem Nv.birth_fuses (r : EvRec) (v : Nv) : (v.birth r).fuses = v.fuses := by
  simp only [Nv.birth, Nv.write_fuses]

@[simp] theorem Nv.writeBoot_fuses (r : BootRec) (v : Nv) : (v.writeBoot r).fuses = v.fuses := by
  simp only [Nv.writeBoot, Nv.write_fuses, Nv.erase_fuses]

@[simp] theorem Nv.writeConfig_fuses (f : Nat) (b : Bytes) (v : Nv) : (v.writeConfig f b).fuses = v.fuses := by
  simp only [Nv.writeConfig, Nv.write_fuses, Nv.erase_fuses]

@[simp] theorem Nv.download_fuses (off : Nat) (data : Bytes) (first : Bool) (v : Nv) : (v.download off data first).fuses = v.fuses := by
  unfold Nv.download
  cases first <;> rfl

@[simp] theorem Nv.bootFirst_fuses (v : Nv) : v.bootFirst.2.2.fuses = v.fuses := by
  unfold Nv.bootFirst
  simp only
  split
  · split
    · exact Nv.writeBoot_fuses _ _
    · exact Nv.writeBoot_fuses _ _
  · rfl

@[simp] theorem Nv.bootRom_fuses (v : Nv) : v.bootRom.2.2.fuses = v.fuses := by
  unfold Nv.bootRom
  simp only
  split
  · exact Nv.bootFirst_fuses v
  · split
    · rw [Nv.writeBoot_fuses, Nv.bootFirst_fuses]
    · exact Nv.bootFirst_fuses v

theorem Nv.blow_fuses (l : Nat) (v : Nv) (h : v.wf = true) : v.fuses ≤ (v.blow l).fuses := by
  have := ((Nv.wf_iff v).1 h).2
  simp only [Nv.blow]
  omega

end Sys2Proof.Machine
end

