-- ==== Sys2Proof/Laws/Frames.lean ====
section
/-! SUPPORT. What each shared operation leaves alone, part by part. -/

namespace Sys2Proof.Machine

/-! Agreement of two drives in one part is equality of that part. -/

@[simp] theorem Drive.agrees_kvx (a b : Drive) : a.Agrees b .kvx ↔ a.kvx = b.kvx := Iff.rfl
@[simp] theorem Drive.agrees_hq (a b : Drive) : a.Agrees b .hq ↔ a.hq = b.hq := Iff.rfl
@[simp] theorem Drive.agrees_xpt (a b : Drive) : a.Agrees b .xpt ↔ a.xpt = b.xpt := Iff.rfl
@[simp] theorem Drive.agrees_evr (a b : Drive) : a.Agrees b .evr ↔ a.evr = b.evr := Iff.rfl
@[simp] theorem Drive.agrees_clk (a b : Drive) : a.Agrees b .clk ↔ a.clk = b.clk := Iff.rfl
@[simp] theorem Drive.agrees_idx (a b : Drive) : a.Agrees b .idx ↔ a.idx = b.idx := Iff.rfl
@[simp] theorem Drive.agrees_csc (a b : Drive) : a.Agrees b .csc ↔ a.csc = b.csc := Iff.rfl
@[simp] theorem Drive.agrees_med (a b : Drive) : a.Agrees b .med ↔ a.med = b.med := Iff.rfl
@[simp] theorem Drive.agrees_bank (a b : Drive) : a.Agrees b .bank ↔ a.bank = b.bank := Iff.rfl
@[simp] theorem Drive.agrees_portA (a b : Drive) : a.Agrees b .portA ↔ a.portA = b.portA := Iff.rfl
@[simp] theorem Drive.agrees_portB (a b : Drive) : a.Agrees b .portB ↔ a.portB = b.portB := Iff.rfl
@[simp] theorem Drive.agrees_jack (a b : Drive) : a.Agrees b .jack ↔ a.jack = b.jack := Iff.rfl
@[simp] theorem Drive.agrees_cry (a b : Drive) : a.Agrees b .cry ↔ a.cry = b.cry := Iff.rfl
@[simp] theorem Drive.agrees_dmc (a b : Drive) : a.Agrees b .dmc ↔ a.dmc = b.dmc := Iff.rfl
@[simp] theorem Drive.agrees_pwr (a b : Drive) : a.Agrees b .pwr ↔ a.pwr = b.pwr := Iff.rfl
@[simp] theorem Drive.agrees_upd (a b : Drive) : a.Agrees b .upd ↔ a.upd = b.upd := Iff.rfl
@[simp] theorem Drive.agrees_mgmt (a b : Drive) : a.Agrees b .mgmt ↔ a.mgmt = b.mgmt := Iff.rfl
@[simp] theorem Drive.agrees_sys (a b : Drive) : a.Agrees b .sys ↔ a.sys = b.sys := Iff.rfl
@[simp] theorem Drive.agrees_free (a b : Drive) : a.Agrees b .free ↔ a.free = b.free := Iff.rfl

variable (d : Drive)

@[simp] theorem Drive.draw_kvx (n : Nat) : (d.draw n).2.kvx = d.kvx := rfl
@[simp] theorem Drive.draw_hq (n : Nat) : (d.draw n).2.hq = d.hq := rfl
@[simp] theorem Drive.draw_xpt (n : Nat) : (d.draw n).2.xpt = d.xpt := rfl
@[simp] theorem Drive.draw_evr (n : Nat) : (d.draw n).2.evr = d.evr := rfl
@[simp] theorem Drive.draw_clk (n : Nat) : (d.draw n).2.clk = d.clk := rfl
@[simp] theorem Drive.draw_idx (n : Nat) : (d.draw n).2.idx = d.idx := rfl
@[simp] theorem Drive.draw_csc (n : Nat) : (d.draw n).2.csc = d.csc := rfl
@[simp] theorem Drive.draw_med (n : Nat) : (d.draw n).2.med = d.med := rfl
@[simp] theorem Drive.draw_bank (n : Nat) : (d.draw n).2.bank = d.bank := rfl
@[simp] theorem Drive.draw_portA (n : Nat) : (d.draw n).2.portA = d.portA := rfl
@[simp] theorem Drive.draw_portB (n : Nat) : (d.draw n).2.portB = d.portB := rfl
@[simp] theorem Drive.draw_jack (n : Nat) : (d.draw n).2.jack = d.jack := rfl
@[simp] theorem Drive.draw_cry (n : Nat) : (d.draw n).2.cry = d.cry := rfl
@[simp] theorem Drive.draw_dmc (n : Nat) : (d.draw n).2.dmc = d.dmc := rfl
@[simp] theorem Drive.draw_pwr (n : Nat) : (d.draw n).2.pwr = d.pwr := rfl
@[simp] theorem Drive.draw_upd (n : Nat) : (d.draw n).2.upd = d.upd := rfl
@[simp] theorem Drive.draw_mgmt (n : Nat) : (d.draw n).2.mgmt = d.mgmt := rfl
@[simp] theorem Drive.draw_sys (n : Nat) : (d.draw n).2.sys = d.sys := rfl

@[simp] theorem Drive.drawNat_kvx : d.drawNat.2.kvx = d.kvx := rfl
@[simp] theorem Drive.drawNat_hq : d.drawNat.2.hq = d.hq := rfl
@[simp] theorem Drive.drawNat_xpt : d.drawNat.2.xpt = d.xpt := rfl
@[simp] theorem Drive.drawNat_evr : d.drawNat.2.evr = d.evr := rfl
@[simp] theorem Drive.drawNat_clk : d.drawNat.2.clk = d.clk := rfl
@[simp] theorem Drive.drawNat_idx : d.drawNat.2.idx = d.idx := rfl
@[simp] theorem Drive.drawNat_csc : d.drawNat.2.csc = d.csc := rfl
@[simp] theorem Drive.drawNat_med : d.drawNat.2.med = d.med := rfl
@[simp] theorem Drive.drawNat_bank : d.drawNat.2.bank = d.bank := rfl
@[simp] theorem Drive.drawNat_portA : d.drawNat.2.portA = d.portA := rfl
@[simp] theorem Drive.drawNat_portB : d.drawNat.2.portB = d.portB := rfl
@[simp] theorem Drive.drawNat_jack : d.drawNat.2.jack = d.jack := rfl
@[simp] theorem Drive.drawNat_cry : d.drawNat.2.cry = d.cry := rfl
@[simp] theorem Drive.drawNat_dmc : d.drawNat.2.dmc = d.dmc := rfl
@[simp] theorem Drive.drawNat_pwr : d.drawNat.2.pwr = d.pwr := rfl
@[simp] theorem Drive.drawNat_upd : d.drawNat.2.upd = d.upd := rfl
@[simp] theorem Drive.drawNat_mgmt : d.drawNat.2.mgmt = d.mgmt := rfl
@[simp] theorem Drive.drawNat_sys : d.drawNat.2.sys = d.sys := rfl

@[simp] theorem Drive.occur_kvx (n : Nat) (b : Bytes) : (d.occur n b).2.kvx = d.kvx := ((d.occur_same n b).agrees .kvx (by decide)).symm
@[simp] theorem Drive.occur_hq (n : Nat) (b : Bytes) : (d.occur n b).2.hq = d.hq := ((d.occur_same n b).agrees .hq (by decide)).symm
@[simp] theorem Drive.occur_xpt (n : Nat) (b : Bytes) : (d.occur n b).2.xpt = d.xpt := ((d.occur_same n b).agrees .xpt (by decide)).symm
@[simp] theorem Drive.occur_clk (n : Nat) (b : Bytes) : (d.occur n b).2.clk = d.clk := ((d.occur_same n b).agrees .clk (by decide)).symm
@[simp] theorem Drive.occur_idx (n : Nat) (b : Bytes) : (d.occur n b).2.idx = d.idx := ((d.occur_same n b).agrees .idx (by decide)).symm
@[simp] theorem Drive.occur_csc (n : Nat) (b : Bytes) : (d.occur n b).2.csc = d.csc := ((d.occur_same n b).agrees .csc (by decide)).symm
@[simp] theorem Drive.occur_med (n : Nat) (b : Bytes) : (d.occur n b).2.med = d.med := ((d.occur_same n b).agrees .med (by decide)).symm
@[simp] theorem Drive.occur_bank (n : Nat) (b : Bytes) : (d.occur n b).2.bank = d.bank := ((d.occur_same n b).agrees .bank (by decide)).symm
@[simp] theorem Drive.occur_portA (n : Nat) (b : Bytes) : (d.occur n b).2.portA = d.portA := ((d.occur_same n b).agrees .portA (by decide)).symm
@[simp] theorem Drive.occur_portB (n : Nat) (b : Bytes) : (d.occur n b).2.portB = d.portB := ((d.occur_same n b).agrees .portB (by decide)).symm
@[simp] theorem Drive.occur_jack (n : Nat) (b : Bytes) : (d.occur n b).2.jack = d.jack := ((d.occur_same n b).agrees .jack (by decide)).symm
@[simp] theorem Drive.occur_cry (n : Nat) (b : Bytes) : (d.occur n b).2.cry = d.cry := ((d.occur_same n b).agrees .cry (by decide)).symm
@[simp] theorem Drive.occur_dmc (n : Nat) (b : Bytes) : (d.occur n b).2.dmc = d.dmc := ((d.occur_same n b).agrees .dmc (by decide)).symm
@[simp] theorem Drive.occur_pwr (n : Nat) (b : Bytes) : (d.occur n b).2.pwr = d.pwr := ((d.occur_same n b).agrees .pwr (by decide)).symm
@[simp] theorem Drive.occur_upd (n : Nat) (b : Bytes) : (d.occur n b).2.upd = d.upd := ((d.occur_same n b).agrees .upd (by decide)).symm
@[simp] theorem Drive.occur_mgmt (n : Nat) (b : Bytes) : (d.occur n b).2.mgmt = d.mgmt := ((d.occur_same n b).agrees .mgmt (by decide)).symm
@[simp] theorem Drive.occur_sys (n : Nat) (b : Bytes) : (d.occur n b).2.sys = d.sys := ((d.occur_same n b).agrees .sys (by decide)).symm
@[simp] theorem Drive.occur_free (n : Nat) (b : Bytes) : (d.occur n b).2.free = d.free := ((d.occur_same n b).agrees .free (by decide)).symm

@[simp] theorem Drive.send_kvx (c : Nat) (k : ReqKind) (w : ReqFor) (a r : Nat) (b : Bytes) : (d.send c k w a r b).kvx = d.kvx := ((d.send_same c k w a r b).agrees .kvx (by decide)).symm
@[simp] theorem Drive.send_hq (c : Nat) (k : ReqKind) (w : ReqFor) (a r : Nat) (b : Bytes) : (d.send c k w a r b).hq = d.hq := ((d.send_same c k w a r b).agrees .hq (by decide)).symm
@[simp] theorem Drive.send_evr (c : Nat) (k : ReqKind) (w : ReqFor) (a r : Nat) (b : Bytes) : (d.send c k w a r b).evr = d.evr := ((d.send_same c k w a r b).agrees .evr (by decide)).symm
@[simp] theorem Drive.send_clk (c : Nat) (k : ReqKind) (w : ReqFor) (a r : Nat) (b : Bytes) : (d.send c k w a r b).clk = d.clk := ((d.send_same c k w a r b).agrees .clk (by decide)).symm
@[simp] theorem Drive.send_idx (c : Nat) (k : ReqKind) (w : ReqFor) (a r : Nat) (b : Bytes) : (d.send c k w a r b).idx = d.idx := ((d.send_same c k w a r b).agrees .idx (by decide)).symm
@[simp] theorem Drive.send_csc (c : Nat) (k : ReqKind) (w : ReqFor) (a r : Nat) (b : Bytes) : (d.send c k w a r b).csc = d.csc := ((d.send_same c k w a r b).agrees .csc (by decide)).symm
@[simp] theorem Drive.send_med (c : Nat) (k : ReqKind) (w : ReqFor) (a r : Nat) (b : Bytes) : (d.send c k w a r b).med = d.med := ((d.send_same c k w a r b).agrees .med (by decide)).symm
@[simp] theorem Drive.send_bank (c : Nat) (k : ReqKind) (w : ReqFor) (a r : Nat) (b : Bytes) : (d.send c k w a r b).bank = d.bank := ((d.send_same c k w a r b).agrees .bank (by decide)).symm
@[simp] theorem Drive.send_portA (c : Nat) (k : ReqKind) (w : ReqFor) (a r : Nat) (b : Bytes) : (d.send c k w a r b).portA = d.portA := ((d.send_same c k w a r b).agrees .portA (by decide)).symm
@[simp] theorem Drive.send_portB (c : Nat) (k : ReqKind) (w : ReqFor) (a r : Nat) (b : Bytes) : (d.send c k w a r b).portB = d.portB := ((d.send_same c k w a r b).agrees .portB (by decide)).symm
@[simp] theorem Drive.send_jack (c : Nat) (k : ReqKind) (w : ReqFor) (a r : Nat) (b : Bytes) : (d.send c k w a r b).jack = d.jack := ((d.send_same c k w a r b).agrees .jack (by decide)).symm
@[simp] theorem Drive.send_cry (c : Nat) (k : ReqKind) (w : ReqFor) (a r : Nat) (b : Bytes) : (d.send c k w a r b).cry = d.cry := ((d.send_same c k w a r b).agrees .cry (by decide)).symm
@[simp] theorem Drive.send_dmc (c : Nat) (k : ReqKind) (w : ReqFor) (a r : Nat) (b : Bytes) : (d.send c k w a r b).dmc = d.dmc := ((d.send_same c k w a r b).agrees .dmc (by decide)).symm
@[simp] theorem Drive.send_pwr (c : Nat) (k : ReqKind) (w : ReqFor) (a r : Nat) (b : Bytes) : (d.send c k w a r b).pwr = d.pwr := ((d.send_same c k w a r b).agrees .pwr (by decide)).symm
@[simp] theorem Drive.send_upd (c : Nat) (k : ReqKind) (w : ReqFor) (a r : Nat) (b : Bytes) : (d.send c k w a r b).upd = d.upd := ((d.send_same c k w a r b).agrees .upd (by decide)).symm
@[simp] theorem Drive.send_mgmt (c : Nat) (k : ReqKind) (w : ReqFor) (a r : Nat) (b : Bytes) : (d.send c k w a r b).mgmt = d.mgmt := ((d.send_same c k w a r b).agrees .mgmt (by decide)).symm
@[simp] theorem Drive.send_sys (c : Nat) (k : ReqKind) (w : ReqFor) (a r : Nat) (b : Bytes) : (d.send c k w a r b).sys = d.sys := ((d.send_same c k w a r b).agrees .sys (by decide)).symm
@[simp] theorem Drive.send_free (c : Nat) (k : ReqKind) (w : ReqFor) (a r : Nat) (b : Bytes) : (d.send c k w a r b).free = d.free := ((d.send_same c k w a r b).agrees .free (by decide)).symm

@[simp] theorem Drive.notify_kvx (q r : Nat) : (d.notify q r).kvx = d.kvx := ((d.notify_link q r).agrees .kvx (by decide)).symm
@[simp] theorem Drive.notify_evr (q r : Nat) : (d.notify q r).evr = d.evr := ((d.notify_link q r).agrees .evr (by decide)).symm
@[simp] theorem Drive.notify_clk (q r : Nat) : (d.notify q r).clk = d.clk := ((d.notify_link q r).agrees .clk (by decide)).symm
@[simp] theorem Drive.notify_idx (q r : Nat) : (d.notify q r).idx = d.idx := ((d.notify_link q r).agrees .idx (by decide)).symm
@[simp] theorem Drive.notify_csc (q r : Nat) : (d.notify q r).csc = d.csc := ((d.notify_link q r).agrees .csc (by decide)).symm
@[simp] theorem Drive.notify_med (q r : Nat) : (d.notify q r).med = d.med := ((d.notify_link q r).agrees .med (by decide)).symm
@[simp] theorem Drive.notify_bank (q r : Nat) : (d.notify q r).bank = d.bank := ((d.notify_link q r).agrees .bank (by decide)).symm
@[simp] theorem Drive.notify_portA (q r : Nat) : (d.notify q r).portA = d.portA := ((d.notify_link q r).agrees .portA (by decide)).symm
@[simp] theorem Drive.notify_portB (q r : Nat) : (d.notify q r).portB = d.portB := ((d.notify_link q r).agrees .portB (by decide)).symm
@[simp] theorem Drive.notify_jack (q r : Nat) : (d.notify q r).jack = d.jack := ((d.notify_link q r).agrees .jack (by decide)).symm
@[simp] theorem Drive.notify_cry (q r : Nat) : (d.notify q r).cry = d.cry := ((d.notify_link q r).agrees .cry (by decide)).symm
@[simp] theorem Drive.notify_dmc (q r : Nat) : (d.notify q r).dmc = d.dmc := ((d.notify_link q r).agrees .dmc (by decide)).symm
@[simp] theorem Drive.notify_pwr (q r : Nat) : (d.notify q r).pwr = d.pwr := ((d.notify_link q r).agrees .pwr (by decide)).symm
@[simp] theorem Drive.notify_upd (q r : Nat) : (d.notify q r).upd = d.upd := ((d.notify_link q r).agrees .upd (by decide)).symm
@[simp] theorem Drive.notify_mgmt (q r : Nat) : (d.notify q r).mgmt = d.mgmt := ((d.notify_link q r).agrees .mgmt (by decide)).symm
@[simp] theorem Drive.notify_sys (q r : Nat) : (d.notify q r).sys = d.sys := ((d.notify_link q r).agrees .sys (by decide)).symm
@[simp] theorem Drive.notify_free (q r : Nat) : (d.notify q r).free = d.free := ((d.notify_link q r).agrees .free (by decide)).symm

@[simp] theorem Drive.appendCqe_kvx (q : Nat) (b : Bytes) (o : Option (Nat × Nat)) : (d.appendCqe q b o).kvx = d.kvx := ((d.appendCqe_link q b o).agrees .kvx (by decide)).symm
@[simp] theorem Drive.appendCqe_evr (q : Nat) (b : Bytes) (o : Option (Nat × Nat)) : (d.appendCqe q b o).evr = d.evr := ((d.appendCqe_link q b o).agrees .evr (by decide)).symm
@[simp] theorem Drive.appendCqe_clk (q : Nat) (b : Bytes) (o : Option (Nat × Nat)) : (d.appendCqe q b o).clk = d.clk := ((d.appendCqe_link q b o).agrees .clk (by decide)).symm
@[simp] theorem Drive.appendCqe_idx (q : Nat) (b : Bytes) (o : Option (Nat × Nat)) : (d.appendCqe q b o).idx = d.idx := ((d.appendCqe_link q b o).agrees .idx (by decide)).symm
@[simp] theorem Drive.appendCqe_csc (q : Nat) (b : Bytes) (o : Option (Nat × Nat)) : (d.appendCqe q b o).csc = d.csc := ((d.appendCqe_link q b o).agrees .csc (by decide)).symm
@[simp] theorem Drive.appendCqe_med (q : Nat) (b : Bytes) (o : Option (Nat × Nat)) : (d.appendCqe q b o).med = d.med := ((d.appendCqe_link q b o).agrees .med (by decide)).symm
@[simp] theorem Drive.appendCqe_bank (q : Nat) (b : Bytes) (o : Option (Nat × Nat)) : (d.appendCqe q b o).bank = d.bank := ((d.appendCqe_link q b o).agrees .bank (by decide)).symm
@[simp] theorem Drive.appendCqe_portA (q : Nat) (b : Bytes) (o : Option (Nat × Nat)) : (d.appendCqe q b o).portA = d.portA := ((d.appendCqe_link q b o).agrees .portA (by decide)).symm
@[simp] theorem Drive.appendCqe_portB (q : Nat) (b : Bytes) (o : Option (Nat × Nat)) : (d.appendCqe q b o).portB = d.portB := ((d.appendCqe_link q b o).agrees .portB (by decide)).symm
@[simp] theorem Drive.appendCqe_jack (q : Nat) (b : Bytes) (o : Option (Nat × Nat)) : (d.appendCqe q b o).jack = d.jack := ((d.appendCqe_link q b o).agrees .jack (by decide)).symm
@[simp] theorem Drive.appendCqe_cry (q : Nat) (b : Bytes) (o : Option (Nat × Nat)) : (d.appendCqe q b o).cry = d.cry := ((d.appendCqe_link q b o).agrees .cry (by decide)).symm
@[simp] theorem Drive.appendCqe_dmc (q : Nat) (b : Bytes) (o : Option (Nat × Nat)) : (d.appendCqe q b o).dmc = d.dmc := ((d.appendCqe_link q b o).agrees .dmc (by decide)).symm
@[simp] theorem Drive.appendCqe_pwr (q : Nat) (b : Bytes) (o : Option (Nat × Nat)) : (d.appendCqe q b o).pwr = d.pwr := ((d.appendCqe_link q b o).agrees .pwr (by decide)).symm
@[simp] theorem Drive.appendCqe_upd (q : Nat) (b : Bytes) (o : Option (Nat × Nat)) : (d.appendCqe q b o).upd = d.upd := ((d.appendCqe_link q b o).agrees .upd (by decide)).symm
@[simp] theorem Drive.appendCqe_mgmt (q : Nat) (b : Bytes) (o : Option (Nat × Nat)) : (d.appendCqe q b o).mgmt = d.mgmt := ((d.appendCqe_link q b o).agrees .mgmt (by decide)).symm
@[simp] theorem Drive.appendCqe_sys (q : Nat) (b : Bytes) (o : Option (Nat × Nat)) : (d.appendCqe q b o).sys = d.sys := ((d.appendCqe_link q b o).agrees .sys (by decide)).symm
@[simp] theorem Drive.appendCqe_free (q : Nat) (b : Bytes) (o : Option (Nat × Nat)) : (d.appendCqe q b o).free = d.free := ((d.appendCqe_link q b o).agrees .free (by decide)).symm

@[simp] theorem Drive.postEvent_kvx (c : Nat) (b : Bytes) : (d.postEvent c b).kvx = d.kvx := ((d.postEvent_event c b).agrees .kvx (by decide)).symm
@[simp] theorem Drive.postEvent_clk (c : Nat) (b : Bytes) : (d.postEvent c b).clk = d.clk := ((d.postEvent_event c b).agrees .clk (by decide)).symm
@[simp] theorem Drive.postEvent_idx (c : Nat) (b : Bytes) : (d.postEvent c b).idx = d.idx := ((d.postEvent_event c b).agrees .idx (by decide)).symm
@[simp] theorem Drive.postEvent_csc (c : Nat) (b : Bytes) : (d.postEvent c b).csc = d.csc := ((d.postEvent_event c b).agrees .csc (by decide)).symm
@[simp] theorem Drive.postEvent_med (c : Nat) (b : Bytes) : (d.postEvent c b).med = d.med := ((d.postEvent_event c b).agrees .med (by decide)).symm
@[simp] theorem Drive.postEvent_bank (c : Nat) (b : Bytes) : (d.postEvent c b).bank = d.bank := ((d.postEvent_event c b).agrees .bank (by decide)).symm
@[simp] theorem Drive.postEvent_portA (c : Nat) (b : Bytes) : (d.postEvent c b).portA = d.portA := ((d.postEvent_event c b).agrees .portA (by decide)).symm
@[simp] theorem Drive.postEvent_portB (c : Nat) (b : Bytes) : (d.postEvent c b).portB = d.portB := ((d.postEvent_event c b).agrees .portB (by decide)).symm
@[simp] theorem Drive.postEvent_jack (c : Nat) (b : Bytes) : (d.postEvent c b).jack = d.jack := ((d.postEvent_event c b).agrees .jack (by decide)).symm
@[simp] theorem Drive.postEvent_cry (c : Nat) (b : Bytes) : (d.postEvent c b).cry = d.cry := ((d.postEvent_event c b).agrees .cry (by decide)).symm
@[simp] theorem Drive.postEvent_dmc (c : Nat) (b : Bytes) : (d.postEvent c b).dmc = d.dmc := ((d.postEvent_event c b).agrees .dmc (by decide)).symm
@[simp] theorem Drive.postEvent_pwr (c : Nat) (b : Bytes) : (d.postEvent c b).pwr = d.pwr := ((d.postEvent_event c b).agrees .pwr (by decide)).symm
@[simp] theorem Drive.postEvent_upd (c : Nat) (b : Bytes) : (d.postEvent c b).upd = d.upd := ((d.postEvent_event c b).agrees .upd (by decide)).symm
@[simp] theorem Drive.postEvent_mgmt (c : Nat) (b : Bytes) : (d.postEvent c b).mgmt = d.mgmt := ((d.postEvent_event c b).agrees .mgmt (by decide)).symm
@[simp] theorem Drive.postEvent_sys (c : Nat) (b : Bytes) : (d.postEvent c b).sys = d.sys := ((d.postEvent_event c b).agrees .sys (by decide)).symm
@[simp] theorem Drive.postEvent_free (c : Nat) (b : Bytes) : (d.postEvent c b).free = d.free := ((d.postEvent_event c b).agrees .free (by decide)).symm

@[simp] theorem Drive.liftFreeze_kvx (l c : Nat) : (d.liftFreeze l c).kvx = d.kvx := ((d.liftFreeze_event l c).agrees .kvx (by decide)).symm
@[simp] theorem Drive.liftFreeze_clk (l c : Nat) : (d.liftFreeze l c).clk = d.clk := ((d.liftFreeze_event l c).agrees .clk (by decide)).symm
@[simp] theorem Drive.liftFreeze_idx (l c : Nat) : (d.liftFreeze l c).idx = d.idx := ((d.liftFreeze_event l c).agrees .idx (by decide)).symm
@[simp] theorem Drive.liftFreeze_csc (l c : Nat) : (d.liftFreeze l c).csc = d.csc := ((d.liftFreeze_event l c).agrees .csc (by decide)).symm
@[simp] theorem Drive.liftFreeze_med (l c : Nat) : (d.liftFreeze l c).med = d.med := ((d.liftFreeze_event l c).agrees .med (by decide)).symm
@[simp] theorem Drive.liftFreeze_bank (l c : Nat) : (d.liftFreeze l c).bank = d.bank := ((d.liftFreeze_event l c).agrees .bank (by decide)).symm
@[simp] theorem Drive.liftFreeze_portA (l c : Nat) : (d.liftFreeze l c).portA = d.portA := ((d.liftFreeze_event l c).agrees .portA (by decide)).symm
@[simp] theorem Drive.liftFreeze_portB (l c : Nat) : (d.liftFreeze l c).portB = d.portB := ((d.liftFreeze_event l c).agrees .portB (by decide)).symm
@[simp] theorem Drive.liftFreeze_jack (l c : Nat) : (d.liftFreeze l c).jack = d.jack := ((d.liftFreeze_event l c).agrees .jack (by decide)).symm
@[simp] theorem Drive.liftFreeze_cry (l c : Nat) : (d.liftFreeze l c).cry = d.cry := ((d.liftFreeze_event l c).agrees .cry (by decide)).symm
@[simp] theorem Drive.liftFreeze_dmc (l c : Nat) : (d.liftFreeze l c).dmc = d.dmc := ((d.liftFreeze_event l c).agrees .dmc (by decide)).symm
@[simp] theorem Drive.liftFreeze_pwr (l c : Nat) : (d.liftFreeze l c).pwr = d.pwr := ((d.liftFreeze_event l c).agrees .pwr (by decide)).symm
@[simp] theorem Drive.liftFreeze_upd (l c : Nat) : (d.liftFreeze l c).upd = d.upd := ((d.liftFreeze_event l c).agrees .upd (by decide)).symm
@[simp] theorem Drive.liftFreeze_mgmt (l c : Nat) : (d.liftFreeze l c).mgmt = d.mgmt := ((d.liftFreeze_event l c).agrees .mgmt (by decide)).symm
@[simp] theorem Drive.liftFreeze_sys (l c : Nat) : (d.liftFreeze l c).sys = d.sys := ((d.liftFreeze_event l c).agrees .sys (by decide)).symm
@[simp] theorem Drive.liftFreeze_free (l c : Nat) : (d.liftFreeze l c).free = d.free := ((d.liftFreeze_event l c).agrees .free (by decide)).symm

@[simp] theorem Drive.raise_kvx (n : Nat) (b : Bytes) : (d.raise n b).kvx = d.kvx := ((d.raise_event n b).agrees .kvx (by decide)).symm
@[simp] theorem Drive.raise_clk (n : Nat) (b : Bytes) : (d.raise n b).clk = d.clk := ((d.raise_event n b).agrees .clk (by decide)).symm
@[simp] theorem Drive.raise_idx (n : Nat) (b : Bytes) : (d.raise n b).idx = d.idx := ((d.raise_event n b).agrees .idx (by decide)).symm
@[simp] theorem Drive.raise_csc (n : Nat) (b : Bytes) : (d.raise n b).csc = d.csc := ((d.raise_event n b).agrees .csc (by decide)).symm
@[simp] theorem Drive.raise_med (n : Nat) (b : Bytes) : (d.raise n b).med = d.med := ((d.raise_event n b).agrees .med (by decide)).symm
@[simp] theorem Drive.raise_bank (n : Nat) (b : Bytes) : (d.raise n b).bank = d.bank := ((d.raise_event n b).agrees .bank (by decide)).symm
@[simp] theorem Drive.raise_portA (n : Nat) (b : Bytes) : (d.raise n b).portA = d.portA := ((d.raise_event n b).agrees .portA (by decide)).symm
@[simp] theorem Drive.raise_portB (n : Nat) (b : Bytes) : (d.raise n b).portB = d.portB := ((d.raise_event n b).agrees .portB (by decide)).symm
@[simp] theorem Drive.raise_jack (n : Nat) (b : Bytes) : (d.raise n b).jack = d.jack := ((d.raise_event n b).agrees .jack (by decide)).symm
@[simp] theorem Drive.raise_cry (n : Nat) (b : Bytes) : (d.raise n b).cry = d.cry := ((d.raise_event n b).agrees .cry (by decide)).symm
@[simp] theorem Drive.raise_dmc (n : Nat) (b : Bytes) : (d.raise n b).dmc = d.dmc := ((d.raise_event n b).agrees .dmc (by decide)).symm
@[simp] theorem Drive.raise_pwr (n : Nat) (b : Bytes) : (d.raise n b).pwr = d.pwr := ((d.raise_event n b).agrees .pwr (by decide)).symm
@[simp] theorem Drive.raise_upd (n : Nat) (b : Bytes) : (d.raise n b).upd = d.upd := ((d.raise_event n b).agrees .upd (by decide)).symm
@[simp] theorem Drive.raise_mgmt (n : Nat) (b : Bytes) : (d.raise n b).mgmt = d.mgmt := ((d.raise_event n b).agrees .mgmt (by decide)).symm
@[simp] theorem Drive.raise_sys (n : Nat) (b : Bytes) : (d.raise n b).sys = d.sys := ((d.raise_event n b).agrees .sys (by decide)).symm
@[simp] theorem Drive.raise_free (n : Nat) (b : Bytes) : (d.raise n b).free = d.free := ((d.raise_event n b).agrees .free (by decide)).symm

@[simp] theorem Drive.raiseConn_kvx (n c q : Nat) (b : Bytes) : (d.raiseConn n c q b).kvx = d.kvx := ((d.raiseConn_event n c q b).agrees .kvx (by decide)).symm
@[simp] theorem Drive.raiseConn_clk (n c q : Nat) (b : Bytes) : (d.raiseConn n c q b).clk = d.clk := ((d.raiseConn_event n c q b).agrees .clk (by decide)).symm
@[simp] theorem Drive.raiseConn_idx (n c q : Nat) (b : Bytes) : (d.raiseConn n c q b).idx = d.idx := ((d.raiseConn_event n c q b).agrees .idx (by decide)).symm
@[simp] theorem Drive.raiseConn_csc (n c q : Nat) (b : Bytes) : (d.raiseConn n c q b).csc = d.csc := ((d.raiseConn_event n c q b).agrees .csc (by decide)).symm
@[simp] theorem Drive.raiseConn_med (n c q : Nat) (b : Bytes) : (d.raiseConn n c q b).med = d.med := ((d.raiseConn_event n c q b).agrees .med (by decide)).symm
@[simp] theorem Drive.raiseConn_bank (n c q : Nat) (b : Bytes) : (d.raiseConn n c q b).bank = d.bank := ((d.raiseConn_event n c q b).agrees .bank (by decide)).symm
@[simp] theorem Drive.raiseConn_portA (n c q : Nat) (b : Bytes) : (d.raiseConn n c q b).portA = d.portA := ((d.raiseConn_event n c q b).agrees .portA (by decide)).symm
@[simp] theorem Drive.raiseConn_portB (n c q : Nat) (b : Bytes) : (d.raiseConn n c q b).portB = d.portB := ((d.raiseConn_event n c q b).agrees .portB (by decide)).symm
@[simp] theorem Drive.raiseConn_jack (n c q : Nat) (b : Bytes) : (d.raiseConn n c q b).jack = d.jack := ((d.raiseConn_event n c q b).agrees .jack (by decide)).symm
@[simp] theorem Drive.raiseConn_cry (n c q : Nat) (b : Bytes) : (d.raiseConn n c q b).cry = d.cry := ((d.raiseConn_event n c q b).agrees .cry (by decide)).symm
@[simp] theorem Drive.raiseConn_dmc (n c q : Nat) (b : Bytes) : (d.raiseConn n c q b).dmc = d.dmc := ((d.raiseConn_event n c q b).agrees .dmc (by decide)).symm
@[simp] theorem Drive.raiseConn_pwr (n c q : Nat) (b : Bytes) : (d.raiseConn n c q b).pwr = d.pwr := ((d.raiseConn_event n c q b).agrees .pwr (by decide)).symm
@[simp] theorem Drive.raiseConn_upd (n c q : Nat) (b : Bytes) : (d.raiseConn n c q b).upd = d.upd := ((d.raiseConn_event n c q b).agrees .upd (by decide)).symm
@[simp] theorem Drive.raiseConn_mgmt (n c q : Nat) (b : Bytes) : (d.raiseConn n c q b).mgmt = d.mgmt := ((d.raiseConn_event n c q b).agrees .mgmt (by decide)).symm
@[simp] theorem Drive.raiseConn_sys (n c q : Nat) (b : Bytes) : (d.raiseConn n c q b).sys = d.sys := ((d.raiseConn_event n c q b).agrees .sys (by decide)).symm
@[simp] theorem Drive.raiseConn_free (n c q : Nat) (b : Bytes) : (d.raiseConn n c q b).free = d.free := ((d.raiseConn_event n c q b).agrees .free (by decide)).symm

@[simp] theorem Drive.startAction_kvx (code op t : Nat) (h : Bool) : (d.startAction code op t h).kvx = d.kvx := by
  unfold Drive.startAction; simp only; split <;> simp
@[simp] theorem Drive.startAction_clk (code op t : Nat) (h : Bool) : (d.startAction code op t h).clk = d.clk := by
  unfold Drive.startAction; simp only; split <;> simp
@[simp] theorem Drive.startAction_idx (code op t : Nat) (h : Bool) : (d.startAction code op t h).idx = d.idx := by
  unfold Drive.startAction; simp only; split <;> simp
@[simp] theorem Drive.startAction_csc (code op t : Nat) (h : Bool) : (d.startAction code op t h).csc = d.csc := by
  unfold Drive.startAction; simp only; split <;> simp
@[simp] theorem Drive.startAction_med (code op t : Nat) (h : Bool) : (d.startAction code op t h).med = d.med := by
  unfold Drive.startAction; simp only; split <;> simp
@[simp] theorem Drive.startAction_bank (code op t : Nat) (h : Bool) : (d.startAction code op t h).bank = d.bank := by
  unfold Drive.startAction; simp only; split <;> simp
@[simp] theorem Drive.startAction_portA (code op t : Nat) (h : Bool) : (d.startAction code op t h).portA = d.portA := by
  unfold Drive.startAction; simp only; split <;> simp
@[simp] theorem Drive.startAction_portB (code op t : Nat) (h : Bool) : (d.startAction code op t h).portB = d.portB := by
  unfold Drive.startAction; simp only; split <;> simp
@[simp] theorem Drive.startAction_jack (code op t : Nat) (h : Bool) : (d.startAction code op t h).jack = d.jack := by
  unfold Drive.startAction; simp only; split <;> simp
@[simp] theorem Drive.startAction_cry (code op t : Nat) (h : Bool) : (d.startAction code op t h).cry = d.cry := by
  unfold Drive.startAction; simp only; split <;> simp
@[simp] theorem Drive.startAction_dmc (code op t : Nat) (h : Bool) : (d.startAction code op t h).dmc = d.dmc := by
  unfold Drive.startAction; simp only; split <;> simp
@[simp] theorem Drive.startAction_pwr (code op t : Nat) (h : Bool) : (d.startAction code op t h).pwr = d.pwr := by
  unfold Drive.startAction; simp only; split <;> simp
@[simp] theorem Drive.startAction_mgmt (code op t : Nat) (h : Bool) : (d.startAction code op t h).mgmt = d.mgmt := by
  unfold Drive.startAction; simp only; split <;> simp
@[simp] theorem Drive.startAction_sys (code op t : Nat) (h : Bool) : (d.startAction code op t h).sys = d.sys := by
  unfold Drive.startAction; simp only; split <;> simp
@[simp] theorem Drive.startAction_free (code op t : Nat) (h : Bool) : (d.startAction code op t h).free = d.free := by
  unfold Drive.startAction; simp only; split <;> simp

@[simp] theorem Drive.refreshCap_kvx : d.refreshCap.kvx = d.kvx := by
  unfold Drive.refreshCap; simp only; split <;> simp
@[simp] theorem Drive.refreshCap_clk : d.refreshCap.clk = d.clk := by
  unfold Drive.refreshCap; simp only; split <;> simp
@[simp] theorem Drive.refreshCap_idx : d.refreshCap.idx = d.idx := by
  unfold Drive.refreshCap; simp only; split <;> simp
@[simp] theorem Drive.refreshCap_csc : d.refreshCap.csc = d.csc := by
  unfold Drive.refreshCap; simp only; split <;> simp
@[simp] theorem Drive.refreshCap_med : d.refreshCap.med = d.med := by
  unfold Drive.refreshCap; simp only; split <;> simp
@[simp] theorem Drive.refreshCap_bank : d.refreshCap.bank = d.bank := by
  unfold Drive.refreshCap; simp only; split <;> simp
@[simp] theorem Drive.refreshCap_portA : d.refreshCap.portA = d.portA := by
  unfold Drive.refreshCap; simp only; split <;> simp
@[simp] theorem Drive.refreshCap_portB : d.refreshCap.portB = d.portB := by
  unfold Drive.refreshCap; simp only; split <;> simp
@[simp] theorem Drive.refreshCap_jack : d.refreshCap.jack = d.jack := by
  unfold Drive.refreshCap; simp only; split <;> simp
@[simp] theorem Drive.refreshCap_cry : d.refreshCap.cry = d.cry := by
  unfold Drive.refreshCap; simp only; split <;> simp
@[simp] theorem Drive.refreshCap_dmc : d.refreshCap.dmc = d.dmc := by
  unfold Drive.refreshCap; simp only; split <;> simp
@[simp] theorem Drive.refreshCap_upd : d.refreshCap.upd = d.upd := by
  unfold Drive.refreshCap; simp only; split <;> simp
@[simp] theorem Drive.refreshCap_mgmt : d.refreshCap.mgmt = d.mgmt := by
  unfold Drive.refreshCap; simp only; split <;> simp
@[simp] theorem Drive.refreshCap_sys : d.refreshCap.sys = d.sys := by
  unfold Drive.refreshCap; simp only; split <;> simp
@[simp] theorem Drive.refreshCap_free : d.refreshCap.free = d.free := by
  unfold Drive.refreshCap; simp only; split <;> simp

/-! Updates outside the event sources leave every count. -/

@[simp] theorem Drive.onKvx_events (m : Nat) (f : Kvx → Kvx) : (d.onKvx f).events m = d.events m := rfl
@[simp] theorem Drive.onHq_events (m : Nat) (f : Hq → Hq) : (d.onHq f).events m = d.events m := rfl
@[simp] theorem Drive.onXpt_events (m : Nat) (f : Xpt → Xpt) : (d.onXpt f).events m = d.events m := rfl
@[simp] theorem Drive.onClk_events (m : Nat) (f : Clocks → Clocks) : (d.onClk f).events m = d.events m := rfl
@[simp] theorem Drive.onIdx_events (m : Nat) (f : Idx → Idx) : (d.onIdx f).events m = d.events m := rfl
@[simp] theorem Drive.onCsc_events (m : Nat) (f : Csc → Csc) : (d.onCsc f).events m = d.events m := rfl
@[simp] theorem Drive.onMed_events (m : Nat) (f : Med → Med) : (d.onMed f).events m = d.events m := rfl
@[simp] theorem Drive.onBank_events (m : Nat) (f : Bank → Bank) : (d.onBank f).events m = d.events m := rfl
@[simp] theorem Drive.onJack_events (m : Nat) (f : Jack → Jack) : (d.onJack f).events m = d.events m := rfl
@[simp] theorem Drive.onCry_events (m : Nat) (f : Cry → Cry) : (d.onCry f).events m = d.events m := rfl
@[simp] theorem Drive.onDmc_events (m : Nat) (f : Dmc → Dmc) : (d.onDmc f).events m = d.events m := rfl
@[simp] theorem Drive.onPwr_events (m : Nat) (f : Pwr → Pwr) : (d.onPwr f).events m = d.events m := rfl
@[simp] theorem Drive.onUpd_events (m : Nat) (f : Upd → Upd) : (d.onUpd f).events m = d.events m := rfl
@[simp] theorem Drive.onMgmt_events (m : Nat) (f : Mgmt → Mgmt) : (d.onMgmt f).events m = d.events m := rfl
@[simp] theorem Drive.onSys_events (m : Nat) (f : Sys → Sys) : (d.onSys f).events m = d.events m := rfl
@[simp] theorem Drive.onConn_events (m : Nat) (c : Nat) (f : Conn → Conn) : (d.onConn c f).events m = d.events m := rfl
@[simp] theorem Drive.onSq_events (m : Nat) (c : Nat) (f : Sq → Sq) : (d.onSq c f).events m = d.events m := rfl
@[simp] theorem Drive.onCq_events (m : Nat) (c : Nat) (f : Cq → Cq) : (d.onCq c f).events m = d.events m := rfl
@[simp] theorem Drive.onCtx_events (m : Nat) (c o : Nat) (f : Ctx → Ctx) : (d.onCtx c o f).events m = d.events m := rfl
@[simp] theorem Drive.onPort_events (m : Nat) (p : Port) (f : PortSt → PortSt) : (d.onPort p f).events m = d.events m := by cases p <;> rfl
@[simp] theorem Drive.send_events (m c : Nat) (k : ReqKind) (w : ReqFor) (a r : Nat) (b : Bytes) : (d.send c k w a r b).events m = d.events m :=
  Drive.events_of_link (d.send_link c k w a r b)
@[simp] theorem Drive.notify_events (m q r : Nat) : (d.notify q r).events m = d.events m := Drive.events_of_link (d.notify_link q r)
@[simp] theorem Drive.appendCqe_events (m q : Nat) (b : Bytes) (o : Option (Nat × Nat)) : (d.appendCqe q b o).events m = d.events m :=
  Drive.events_of_link (d.appendCqe_link q b o)

/-- An action that starts counts in `SVC_ACTION` alone. -/
theorem Drive.startAction_events (m code op t : Nat) (h : Bool) (hm : m ≠ 0x094) (k : m ≠ 0x1F1) (j : m ≠ 0x1F6) :
    (d.startAction code op t h).events m = d.events m := by
  unfold Drive.startAction
  simp only
  split
  · rw [Drive.raise_events _ _ _ _ (by decide) hm k, if_neg j]; rfl
  · rfl

end Sys2Proof.Machine
end

