-- ==== Sys2Proof/WellFormed.lean ====
section
/-! DEFINITION. Which commands are well formed: operands within the ranges that the spec gives queues, connections, tiles,
channels and register offsets. -/

namespace Sys2Proof

/-- A queue ID: 14 bits (R102). -/
def wfQueue (q : Nat) : Bool := decide (q < 0x4000)

/-- A connection index: 12 bits (R88). -/
def wfConn (c : Nat) : Bool := decide (c < 0x1000)

/-- A command tag: 16 bits (R109). -/
def wfTag (t : Nat) : Bool := decide (t < 0x10000)

/-- A key space ID: 12 bits (R43). -/
def wfKs (k : Nat) : Bool := decide (k < 0x1000)

/-- A register offset: a multiple of 4 below 64 KiB (R649). -/
def wfReg (off : Nat) : Bool := decide (off < 0x10000) && off % 4 == 0

/-- A segment ID: 20 bits (R64). -/
def wfSegment (s : Nat) : Bool := decide (s < 0x100000)

/-- A submission entry: key, value and command-specific areas of 48, 32 and 16 bytes (R108). -/
def wfSqe (e : Sqe) : Bool := e.key.length == 48 && e.val.length == 32 && e.cmd.length == 16

/-- Host memory whose regions fit the 64-bit address space (R111). -/
def wfHost (m : HostMem) : Bool := m.all fun x => decide (x.1 + x.2.length ≤ 2 ^ 64)

/-- A data or admin command: its queue, its entry, the memory behind it. -/
def wfCommand (sq : Nat) (e : Sqe) (m : HostMem) : Bool := wfQueue sq && wfSqe e && wfHost m

/-- A channel of the flash array (R334). -/
def wfChannel (c : Nat) : Bool := decide (c < 32)

/-- A link mode code: 0 none, else one of R418's five modes. -/
def wfLinkMode (m : Nat) : Bool := decide (m < 6)

def Instr.wf : Instr → Bool
  | .get q e m | .put q e m | .delete q e m | .existsKey q e m | .getrange q e m | .append q e m | .cas q e m
  | .tget q e m | .batch q e m | .scan q e m | .search q e m | .find q e m | .watch q e m | .unwatch q e m
  | .snapshot q e m | .snapclose q e m | .flush q e m | .barrier q e m | .kscreate q e m | .ksdelete q e m
  | .ksmodify q e m | .qcreate q e m | .qdeleteSq q e m | .qdeleteCq q e m | .qrestartResume q e m
  | .qrestartDiscard q e m | .abort q e m | .regRead q e m | .regWrite q e m | .logread q e m | .evfreeze q e m
  | .evthaw q e m | .keyloadSlot q e m | .keyloadTenant q e m | .tokenKeyRotation q e m | .keydropSlot q e m
  | .keydropTenant q e m | .setmode q e m | .selftestShort q e m | .selftestExtended q e m | .selftestStop q e m
  | .fwdownload q e m | .fwverify q e m | .fwactivateReset q e m | .fwactivateLive q e m | .fwconfirm q e m
  | .sanitize q e m | .identify q e m => wfCommand q e m
  | .sqeFetchIssue q n _ => wfQueue q && decide (1 ≤ n) && decide (n ≤ 32)
  | .sqeArrival q es => wfQueue q && es.all fun b => b.length == 128
  | .dominoResolve q t | .barrierRelease q t | .dedupRepeatRelease q t | .turn q t | .settle q t | .discardedSettle q t
  | .abortedSettle q t | .cqeWrite q t | .valueDataArrival q t _ | .ladderStepComplete q t _ _ => wfQueue q && wfTag t
  | .rdmaReadRefused q t => wfQueue q && (match t with
    | some t => wfTag t
    | none => true)
  | .codewordRead q t c _ _ _ _ => wfQueue q && wfTag t && decide (c < 2 ^ 25)
  | .cipherPreempt _ cls _ => decide (cls < 4)
  | .notificationTimer q | .errorRecordWrite q => wfQueue q
  | .eventCqeRelease c | .cmRtu c | .cmDreq c | .cmLap c _ | .helloTimeout c | .sendAfterHello c | .roceAck c _
  | .nakSequence c _ | .rnrNak c _ | .ackTimeout c | .duplicateRequest c _ _ | .connectionFree c | .ceMarkedPacket c
  | .cnpReceive c | .rateRecoveryTimer c | .alternatePathPacket c | .rdmaWriteRefused c _ => wfConn c
  | .hello c _ => wfConn c
  | .sqDoorbell c off _ | .cqDoorbell c off _ => wfConn c && decide (off < 2 ^ 21)
  | .invalidRequest c _ _ => wfConn c
  | .cmReq r => wfConn r.index
  | .linkUp _ mode _ => wfLinkMode mode
  | .addressWrite _ _ off _ | .selectWrite _ off _ | .halfLatchRead _ off | .registerAccessTimeout _ off
  | .registerWrite _ off _ => wfReg off
  | .rebuildEnd ks => wfKs ks
  | .segmentRefresh s t | .fold s t => wfSegment s && wfSegment t
  | .gcCopyProgrammed s t _ _ => wfSegment s && wfSegment t
  | .gcMapCommit s | .gcReclaimRecord s | .blockEraseComplete s _ _ => wfSegment s
  | .spareRebuildEnd c => wfChannel c
  | .channelRetrainComplete c _ => wfChannel c
  | .scrubPassEnd entries => entries.length == 512
  | .mctpRead off count | .mctpWrite off count _ => decide (off < 0x10000) && decide (count < 0x100)
  | .areaErase a | .slotVerify a | .slotInstall a => decide (a < 0x100)
  | .areaWrite a off _ => decide (a < 0x100) && decide (off < 2 ^ 32)
  | .windowEntryExpiry | .chunkProgramComplete _ _ _ _ | .packWindowExpiry | .packProgramComplete _ _ _
  | .journalProgramTimer | .journalProgramComplete | .admission | .pacedAdmission | .watchCheck | .nextHopRefresh
  | .frameReceive _ _ _ _ | .arpRequest _ _ _ _ | .neighborSolicitation _ _ _ _ | .icmpEcho _ _ _ _
  | .addressResolutionRetry _ _ | .linkDown _ | .pauseReceive _ _ | .pauseExpiry _ | .pauseRefreshTimer _
  | .pauseRelease _ _ | .netPausestorm _ | .pausestormEnd _ | .txUnderrun _ | .cutThroughDecay _ | .wakeFrame _ _
  | .jackLockEnd | .jackLinkRetry _ | .linkRestart _ _ _ | .filterLoad _ _ | .filterFetch _ _ | .maxfrmWrite _ _ _
  | .wakecodeWrite _ _ _ | .connHold _ | .connProvision _ | .connClose _ | .connRelease _ | .altPathArm _ | .hwmclr _
  | .clkmstWrite _ _ | .clockSampleEnd _ | .cascadeEnable _ _ | .ringJoin | .rollnow _ | .rollCallTimer
  | .arbitrationStart | .pass1Return _ _ _ _ _ | .pass2Receive _ _ _ _ _ _ _ | .cascClkLoss | .cscSyncto
  | .schedulingEpoch | .scrubPassStart | .scrubDeferral | .scrubNow _ | .mainPowerLoss _
  | .pwrMainLow _ | .measurementRoundStart | .sectionDischargeDone _ _ | .sectionRechargeDone | .sectionChargeTimeout _
  | .sectionShort _ | .bankCharged | .sectionIsolateCmd _ _ | .measureNow _ | .stagecapWrite _ _ | .pwrCmdMode _ _
  | .pwrCmdCap _ _ | .autoIdle | .idleEntryDone | .idleExitDone | .parkDrainDone | .parkPowerDown | .wakePin | .rtcAlarm
  | .rtcScrubWake | .powerGrant | .resumeDone | .pwrGoodLow | .thermalWarn _ | .thermalRecover _ | .thermalShutdown _ _
  | .resetAssert _ | .auxRise _ | .auxLoss | .bootEntry | .boot _ | .replayDone _ | .trialTimeout | .updRollback _ _
  | .sanitizeStepComplete _ | .selftestUnit _ | .actCoreReplace _ _ | .actTileFence _ _ | .actDieRetire _ _
  | .actDieRecalibrate _ _ | .actLaneRetrain _ _ | .islFence _ _ | .islRelease _ _ | .islReset _ _ | .coreFailure _
  | .liveActionEnd _ _ _ | .katRound _ _ _ | .katNow _ | .cryBusError _ | .cryVoltageAlarm | .cryClockAlarm
  | .cryTamperAlarm | .cryKeysRestored | .blobLoad _ | .digStart _ _ | .digPush _ _ | .digLast _ _ | .digDone _
  | .dramUncorrectable _ _ _ _ _ _ | .parityAlert _ _ | .replayComplete _ _ _ | .patrolTimer | .patrolStart _
  | .dramRetrainTimer _ | .dramRetrain _ | .trainingComplete _ | .speedSwitchDone _ | .recordMove | .freezeTimeout
  | .lifeClockJournal | .timeSet _ _ | .mctpPacket _ | .getEndpointId | .getEndpointUuid | .getMctpVersionSupport _
  | .getMessageTypeSupport | .getVendorMessageSupport _ | .status | .areaEraseComplete | .sessionChallenge
  | .sessionOpen _ | .sessionSealed _ | .sessionClose _ | .sessionTimeout | .smbusTimeout | .responseRetry
  | .alertResponse | .pfcfgWrite _ _ | .tilecfgWrite _ _ | .sectionMeasurementStart _ | .configurationStoreWrite
  | .setEndpointId _ _ | .patrolEnd | .auxBelowRange | .netFecdeg _ _ => true

end Sys2Proof
end

