-- ==== Sys2Proof/Tests/Slice0.lean ====
section
/-! SUPPORT. Tests: ill-formed commands, worked examples of the spec, and for each statement states that meet its hypotheses. The
states are built from `lab`: a drive in ACTIVE/THROUGHPUT with one connection of an administrator, an admin SQ 0, an SQ 1, a CQ 0 and
the ORDERED MUTABLE key space 1 that holds key 0x41 at version 3. -/

namespace Sys2Proof.Tests

open Sys2Proof Sys2Proof.Machine

/-! The laboratory. -/

def labKs : KeySpace :=
  { id := 1, index := .ordered, vclass := .mutable, retention := .standard, slot := 0xFFFF, byteQuota := u64max, keyQuota := u64max
    acl := [{ tenant := 1, rights := 7 }], label := [], hwm := 4, serial := 1, mediaKey := some [1], wrapped := [], xts128 := false }

def labRec (key : Byte) (value : Bytes) : Rec :=
  { ks := 1, key := [key], version := 3, wtime := 0, value := value, digest := none, seg := 5, off := 16, recId := key.toNat
    tagged := false, born := 1, died := none }

def labSq (id : Nat) (admin : Bool) : Sq :=
  { id := id, conn := 0, admin := admin, strict := true, cq := 0, addr := 0x10000, rkey := 1, depth := 16, head := 0, fetched := 0
    tail := 1, dbSeq := 1, weight := 1, credit := 0, roundCredit := 1, limit := 255, faulted := false, freeze := none, closing := false
    segs := [(1, 1)], recent := [], stale := 0, bad := 0, serial := id + 1, fresh := 0 }

def labCq (id : Nat) (admin : Bool) : Cq :=
  { id := id, conn := 0, admin := admin, addr := 0x20000, rkey := 1, depth := 16, head := 0, tail := 0, dbSeq := 0, nen := true, time := 1
    count := 1, since := 0, firstAt := 0, faulted := false, stale := 0, bad := 0, evLost := 0 }

def labConn : Conn :=
  { Conn.fresh 0 with state := .ready, tenant := 1, resources := 16, path := { (Conn.fresh 0).path with pmtu := 5 } }

def labStore : Store :=
  { Store.empty with kss := [labKs], recs := [labRec 65 [1, 2, 3]], driveKey := [9], fpKey := fill 16 0, tenants := [{ id := 1, key := [1], admin := true }] }

/-- The open buffer segment of the laboratory. -/
def labSeg : Segment := { id := 5, used := 1024, frame := 7, cell := .buffer, lacks := none, owner := none, state := .opened }

def labDrive : Drive :=
  { Drive.reset with
    med := { Med.reset with segs := [labSeg] }
    pwr := { Pwr.reset with cur := 3 }
    upd := { Upd.reset with cores := 0x3F3F3F3F, spares := 0xC0C0C0C0 }
    kvx := { Kvx.reset with turnSer := 7, recCount := 99, store := labStore, base := labStore }
    xpt := { Xpt.reset with conns := [labConn] }
    hq := { Hq.reset with sqs := [labSq 0 true, labSq 1 false], cqs := [labCq 0 true] } }

/-- The laboratory with the drive changed. -/
def lab (f : Drive → Drive) : State := { State.reset with d := f labDrive }

/-- The laboratory with an entry on SQ `q` alone. -/
def labQ (q : Nat) (f : Drive → Drive) : State :=
  lab fun d => f (d.onHq fun h => { h with sqs := h.sqs.map fun x => if x.id = q then x else { x with tail := 0, segs := [] } })

/-- An entry on key space 1 with a buffer of `vlen` bytes at 0x5000. -/
def entry (key : Bytes) (vlen : Nat) (flags : BitVec 8) : Sqe :=
  { ks := 1, flags := flags, keyLen := BitVec.ofNat 16 key.length, valLen := BitVec.ofNat 32 vlen, key := padTo 48 key
    val := padTo 32 (leBytes 8 0x5000 ++ leBytes 4 1 ++ leBytes 4 vlen), cmd := fill 16 0 }

/-- An admin entry with command-specific bytes. -/
def adminEntry (vlen : Nat) (cmd : Bytes) : Sqe := { entry [] vlen 0 with ks := 0, cmd := padTo 16 cmd }

/-- The command at its turn and the state then satisfy `p`. -/
def turnOf (s : State) (q op : Nat) (e : Sqe) (m : HostMem) (p : Ctx → State → Bool) : Bool :=
  match s.atTurn q op e m with
  | some x => p x.1 x.2
  | none => false

/-- `exec` answers a next state that satisfies `p`. -/
def after (i : Instr) (s : State) (p : State → Bool) : Bool :=
  match exec i s with
  | .next t => p t
  | _ => false

/-- Command `c` has settled with status `st`. -/
def ended (c : Ctx) (st : Nat) (t : State) : Bool :=
  match t.d.ctx? c.sq c.ord with
  | some x => x.settled && x.res.status == st
  | none => false

/-- The value of key `k` of key space 1. -/
def valueOf (k : Byte) (t : State) : Option (Nat × Bytes) := (t.d.kvx.store.get? 1 [k]).map fun r => (r.version, r.value)

set_option maxRecDepth 100000
set_option Elab.async false

/-! Writes (WritesCommit, BatchAtomic). -/

def mem3 : HostMem := [(0x5000, [7, 8, 9])]

/-- A write at its turn has room. -/
def roomy (c : Ctx) (s : State) : Bool := c.ops.isNone && s.d.writeOpen c && s.d.writeRoom c

theorem test_put : turnOf (labQ 1 id) 1 0x02 (entry [66] 3 0) mem3 (fun c s' => roomy c s' &&
    after (.put 1 (entry [66] 3 0) mem3) (labQ 1 id) fun t => ended c 0 t && valueOf 66 t == some (5, [7, 8, 9])
      && valueOf 65 t == some (3, [1, 2, 3])) = true := by decide +kernel

theorem test_cas : turnOf (labQ 1 id) 1 0x07 { entry [65] 3 0 with operand := 3 } mem3 (fun c s' => roomy c s' &&
    after (.cas 1 { entry [65] 3 0 with operand := 3 } mem3) (labQ 1 id) fun t => ended c 0 t && valueOf 65 t == some (4, [7, 8, 9]))
    = true := by decide +kernel

theorem test_append : turnOf (labQ 1 id) 1 0x06 (entry [65] 3 0) mem3 (fun c s' => roomy c s' &&
    after (.append 1 (entry [65] 3 0) mem3) (labQ 1 id) fun t => ended c 0 t && valueOf 65 t == some (4, [1, 2, 3, 7, 8, 9]))
    = true := by decide +kernel

theorem test_delete : turnOf (labQ 1 id) 1 0x03 (entry [65] 0 0) [] (fun c s' => roomy c s' &&
    after (.delete 1 (entry [65] 0 0) []) (labQ 1 id) fun t => ended c 0 t && valueOf 65 t == none
      && (t.d.kvx.store.ks? 1).map (·.hwm) == some 4) = true := by decide +kernel

/-- A write that its operands refuse. -/
def refusedWrite (op st : Nat) (e : Sqe) (i : Instr) : Bool :=
  turnOf (labQ 1 id) 1 op e mem3 fun c s' => c.ops.isNone && s'.d.writeOpen c &&
    after i (labQ 1 id) fun t => ended c st t && t.d.kvx.store == s'.d.kvx.store

theorem test_writes_refused :
    refusedWrite 0x02 0x1002 (entry [65] 3 0x10) (.put 1 (entry [65] 3 0x10) mem3) = true ∧
    refusedWrite 0x02 0x1001 (entry [66] 3 0x20) (.put 1 (entry [66] 3 0x20) mem3) = true ∧
    refusedWrite 0x07 0x1003 { entry [65] 3 0 with operand := 9 } (.cas 1 { entry [65] 3 0 with operand := 9 } mem3) = true ∧
    refusedWrite 0x06 0x1001 (entry [66] 3 0) (.append 1 (entry [66] 3 0) mem3) = true ∧
    refusedWrite 0x03 0x1001 (entry [66] 0 0) (.delete 1 (entry [66] 0 0) mem3) = true ∧
    refusedWrite 0x03 0x1003 { entry [65] 0 0x40 with operand := 9 } (.delete 1 { entry [65] 0 0x40 with operand := 9 } mem3) = true := by
  decide +kernel

/-- A PUT before its turn that waits on a list of those not admitted. -/
def waiting (f : Drive → Drive) (i : Instr) : Bool :=
  turnOf (labQ 1 id) 1 0x02 (entry [66] 3 0) mem3 fun c s' =>
    let s : State := { s' with d := f s'.d }
    s.d.ctx? 1 0 == some c && s.d.canTurn c && roomy c s && after i s fun t => ended c 0 t && valueOf 66 t == some (5, [7, 8, 9])

theorem test_admission :
    waiting (fun d => d.onKvx fun k => { k with admq := [(1, 0)] }) .admission = true ∧
    waiting (fun d => d.onMed fun m => { m with paced := [(1, 0)] }) .pacedAdmission = true := by decide +kernel

/-- A batch list of one value byte 0x55 and two operations: PUT of key 0x43, then DELETE of key `k`. -/
def batchList (k : Byte) : Bytes :=
  leBytes 2 2 ++ leBytes 2 0 ++ leBytes 4 83 ++ leBytes 8 1 ++
    ([2, 0] ++ leBytes 2 1 ++ leBytes 2 1 ++ leBytes 2 0 ++ leBytes 4 1 ++ leBytes 4 80 ++ leBytes 8 0 ++ leBytes 4 81 ++ leBytes 4 0) ++
    ([3, 0] ++ leBytes 2 1 ++ leBytes 2 1 ++ leBytes 2 0 ++ leBytes 4 0 ++ leBytes 4 82 ++ leBytes 8 0 ++ leBytes 4 0 ++ leBytes 4 0) ++
    [0x43, 0x55, k]

def batchEntryLab : Sqe := { entry [] 83 0 with ks := 0 }

theorem test_batch :
    turnOf (labQ 1 id) 1 0x10 batchEntryLab [(0x5000, batchList 65)] (fun c s' => c.ops.isSome && s'.d.writeOpen c && s'.d.writeRoom c &&
      after (.batch 1 batchEntryLab [(0x5000, batchList 65)]) (labQ 1 id) fun t => ended c 0 t && valueOf 67 t == some (5, [0x55])
        && valueOf 65 t == none) = true ∧
    turnOf (labQ 1 id) 1 0x10 batchEntryLab [(0x5000, batchList 66)] (fun c s' => c.ops.isSome && s'.d.writeOpen c &&
      after (.batch 1 batchEntryLab [(0x5000, batchList 66)]) (labQ 1 id) fun t => ended c 0x1001 t && valueOf 67 t == none
        && t.d.kvx.store == s'.d.kvx.store) = true := by decide +kernel

/-! Reads (KeyedReads, SetReads). -/

/-- Command `c` has had its turn with this status and data, and `data` went to its buffer. -/
def returned (c : Ctx) (st : Nat) (data : Bytes) (t : State) : Bool :=
  match t.d.ctx? c.sq c.ord, t.d.conn? c.conn with
  | some x, some y => (x.turned || x.ran) && x.res.status == st && x.data == data &&
      y.unacked.any fun r => r.what == .value c.sq c.ord && r.addr == 0x5000 && r.data == data
  | _, _ => false

/-- The read of the current version of the key is possible. -/
def readable (c : Ctx) (s : State) : Bool :=
  !snapOp c.op c.e && (s.d.indexLost c.e.ksId (c.key.getD [])).isNone && s.d.cry.aesFence != 0xFFFF && (s.d.conn? c.conn).isSome
    && !s.d.csc.find.contains (c.sq, c.ord)

theorem test_get :
    turnOf (labQ 1 id) 1 0x01 (entry [65] 64 0) [] (fun c s' => readable c s' && (s'.held c).isSome &&
      after (.get 1 (entry [65] 64 0) []) (labQ 1 id) fun t => returned c 0 [1, 2, 3] t) = true ∧
    turnOf (labQ 1 id) 1 0x01 (entry [65] 2 0) [] (fun c s' => readable c s' && (s'.held c).isSome &&
      after (.get 1 (entry [65] 2 0) []) (labQ 1 id) fun t => ended c 0x6002 t) = true ∧
    turnOf (labQ 1 id) 1 0x01 (entry [66] 64 0) [] (fun c s' => readable c s' && (s'.held c).isNone &&
      after (.get 1 (entry [66] 64 0) []) (labQ 1 id) fun t => ended c 0x1001 t) = true := by decide +kernel

theorem test_exists_getrange :
    turnOf (labQ 1 id) 1 0x04 (entry [65] 0 0) [] (fun c s' => readable c s' && (s'.held c).isSome &&
      after (.existsKey 1 (entry [65] 0 0) []) (labQ 1 id) fun t => ended c 0 t) = true ∧
    turnOf (labQ 1 id) 1 0x04 (entry [66] 0 0) [] (fun c s' => readable c s' && (s'.held c).isNone &&
      after (.existsKey 1 (entry [66] 0 0) []) (labQ 1 id) fun t => ended c 0x1001 t) = true ∧
    turnOf (labQ 1 id) 1 0x05 { entry [65] 64 0 with cmd := padTo 16 [2] } [] (fun c s' => readable c s' && (s'.held c).isSome &&
      after (.getrange 1 { entry [65] 64 0 with cmd := padTo 16 [2] } []) (labQ 1 id) fun t => returned c 0 [3] t) = true ∧
    turnOf (labQ 1 id) 1 0x05 { entry [65] 64 0 with cmd := padTo 16 [3] } [] (fun c s' => readable c s' && (s'.held c).isSome &&
      after (.getrange 1 { entry [65] 64 0 with cmd := padTo 16 [3] } []) (labQ 1 id) fun t => ended c 0x1004 t) = true ∧
    turnOf (labQ 1 id) 1 0x05 (entry [66] 64 0) [] (fun c s' => readable c s' && (s'.held c).isNone &&
      after (.getrange 1 (entry [66] 64 0) []) (labQ 1 id) fun t => ended c 0x1001 t) = true := by decide +kernel

/-- Key space 1 as an ANCHORED one, and the token of its record. -/
def anchoredLab : State :=
  labQ 1 fun d => d.onKvx fun k => { k with store := { k.store with kss := [{ labKs with vclass := .anchored }] } }
def labToken : Bytes := anchoredLab.d.kvx.store.token (labRec 65 [1, 2, 3])

theorem test_tget :
    turnOf anchoredLab 1 0x08 { entry [] 64 0 with cmd := labToken } [] (fun c s' => s'.d.cry.aesFence != 0xFFFF &&
      after (.tget 1 { entry [] 64 0 with cmd := labToken } []) anchoredLab fun t => returned c 0 [1, 2, 3] t) = true ∧
    turnOf anchoredLab 1 0x08 { entry [] 2 0 with cmd := labToken } [] (fun c _ =>
      after (.tget 1 { entry [] 2 0 with cmd := labToken } []) anchoredLab fun t => ended c 0x6002 t) = true ∧
    turnOf anchoredLab 1 0x08 { entry [] 64 0 with cmd := overlay labToken 15 [labToken.getD 15 0 + 1] } [] (fun c _ =>
      after (.tget 1 { entry [] 64 0 with cmd := overlay labToken 15 [labToken.getD 15 0 + 1] } []) anchoredLab fun t => ended c 0x3003 t)
      = true := by decide +kernel

/-- Three keys: 0x41, 0x42 0x01 and 0x42 0x02. -/
def keysLab : State :=
  labQ 1 fun d => d.onKvx fun k => { k with store := { k.store with
    recs := [labRec 65 [1, 2, 3], { labRec 66 [] with key := [66, 2] }, { labRec 67 [] with key := [66, 1] }] } }

/-- What a SCAN of all keys returns: 32 bytes for each key. -/
def scanAll : Bytes := [labRec 65 [1, 2, 3], { labRec 67 [] with key := [66, 1] }, { labRec 66 [] with key := [66, 2] }].flatMap fun r => scanEntry r false

/-- The pattern block of keys whose first byte is `b` and whose length is 2, at most 10 of them. -/
def patternBlock (b : Byte) : Bytes :=
  padTo 64 [b] ++ padTo 64 [0xFF] ++ leBytes 2 2 ++ leBytes 2 2 ++ leBytes 4 10 ++ leBytes 4 0 ++ leBytes 4 0 ++ leBytes 8 0 ++ leBytes 8 0

def searchEntry : Sqe := { entry [] 512 0x20 with cmd := leBytes 8 0x9000 ++ leBytes 4 1 ++ leBytes 4 160 }

theorem test_scan :
    turnOf keysLab 1 0x11 { entry [] 512 0x20 with cmd := padTo 16 [10] } [] (fun c s' => !c.e.flag 4 && !c.e.flag 7 &&
      (s'.d.conn? c.conn).isSome && scanAll.length == 96 &&
      after (.scan 1 { entry [] 512 0x20 with cmd := padTo 16 [10] } []) keysLab fun t => returned c 0 scanAll t &&
        (t.d.ctx? c.sq c.ord).map (·.res.b) == some (leBytes 4 3 ++ leBytes 4 3 ++ leBytes 8 0)) = true ∧
    turnOf keysLab 1 0x11 { entry [67] 512 0 with cmd := padTo 16 [10] } [] (fun c _ =>
      after (.scan 1 { entry [67] 512 0 with cmd := padTo 16 [10] } []) keysLab fun t => ended c 0 t) = true := by decide +kernel

theorem test_search :
    turnOf keysLab 1 0x12 searchEntry [(0x9000, patternBlock 66)] (fun c s' => decide (s'.d.idx.slots.length < 64) &&
      fixedPrefix c.pat == [66] && after (.search 1 searchEntry [(0x9000, patternBlock 66)]) keysLab fun t => returned c 0 (scanAll.drop 32) t) = true ∧
    turnOf keysLab 1 0x12 searchEntry [(0x9000, patternBlock 67)] (fun c _ =>
      after (.search 1 searchEntry [(0x9000, patternBlock 67)]) keysLab fun t => ended c 0 t) = true := by decide +kernel

theorem test_find :
    turnOf (labQ 1 id) 1 0x13 (entry [65] 64 0) [] (fun c s' => readable c s' && !s'.d.csc.en &&
      after (.find 1 (entry [65] 64 0) []) (labQ 1 id) fun t => returned c 0 [1, 2, 3] t) = true ∧
    turnOf (labQ 1 id) 1 0x13 (entry [66] 64 0) [] (fun c s' => readable c s' && (s'.held c).isNone &&
      after (.find 1 (entry [66] 64 0) []) (labQ 1 id) fun t => ended c 0x1001 t) = true ∧
    turnOf (labQ 1 fun d => d.onCsc fun x => { x with en := true }) 1 0x13 (entry [65] 64 0) [] (fun c s' => s'.d.csc.en &&
      after (.find 1 (entry [65] 64 0) []) (labQ 1 fun d => d.onCsc fun x => { x with en := true }) fun t =>
        t.d.csc.find == [(1, c.ord)]) = true ∧
    turnOf (labQ 1 fun d => d.onCsc fun x => { x with en := true }) 1 0x13 (entry [66] 64 0) [] (fun c s' => (s'.held c).isNone &&
      after (.find 1 (entry [66] 64 0) []) (labQ 1 fun d => d.onCsc fun x => { x with en := true }) fun t =>
        t.d.csc.find == [(1, c.ord)]) = true := by decide +kernel

/-! Watches, snapshots, FLUSH, BARRIER, key spaces (WatchesSnapshotsFlush, KeySpaceCommands, HighWaterMark). -/

/-- The pattern block of a WATCH for PUT of keys of length 1. -/
def watchBlock : Bytes :=
  padTo 64 [66] ++ padTo 64 [0xFF] ++ leBytes 2 1 ++ leBytes 2 1 ++ [1] ++ fill 27 0

def watchEntry : Sqe := { entry [] 0 0 with cmd := leBytes 8 0x9000 ++ leBytes 4 1 ++ leBytes 4 160 }

def labWatch : Watch := { id := 0, since := 1, conn := 0, tenant := 1, ks := 1, pat := watchBlock, ring := [], slots := 0, seq := 0, ord := 0 }

/-- An open snapshot of key space 1. -/
def labSnap : Snap := { slot := 0, gen := 1, tenant := 1, kss := [1], horizon := 7 }

/-- The laboratory with a watch and a snapshot, an entry on SQ `q`. -/
def setLab (q : Nat) : State :=
  labQ q fun d => d.onKvx fun k => { k with watches := [labWatch], store := { k.store with snaps := [labSnap], snapGen := 1 } }

/-- A command of SQ `q` that waits for its turn: it takes it now, and then `p` holds. -/
def waitsOn (q op : Nat) (e : Sqe) (g : Ctx → Ctx) (f : Drive → Drive) (p : Ctx → State → State → Bool) : Bool :=
  let c : Ctx := g { sq := q, ord := 40, abs := 0, conn := 0, tenant := 1, avail := 0, op := op, e := e, arrived := true, started := true }
  let s : State := lab fun d => f (d.onKvx fun k => { k with ctxs := [c] })
  s.d.find? q 0 (fun x => s.d.turnAllowed x) == some c && s.d.canTurn c && after (.turn q 0) s fun t => p c s t

/-- The same of an admin command. -/
def waitsTurn (op : Nat) (e : Sqe) (f : Drive → Drive) (p : Ctx → State → State → Bool) : Bool :=
  waitsOn 0 op e id f fun c s t => (s.d.adminFault c).isNone && p c s t

theorem test_watch :
    turnOf (labQ 1 id) 1 0x14 watchEntry [(0x9000, watchBlock)] (fun c s' => lowestFree 1024 (s'.d.kvx.watches.map (·.id)) == some 0 &&
      after (.watch 1 watchEntry [(0x9000, watchBlock)]) (labQ 1 id) fun t => ended c 0 t && t.d.kvx.watches.map (·.pat) == [watchBlock])
      = true ∧
    turnOf (setLab 1) 1 0x15 { entry [] 0 0 with ks := 0 } [] (fun c s' => s'.d.kvx.checks.isEmpty && !s'.d.watchPosts 0 0 &&
      after (.unwatch 1 { entry [] 0 0 with ks := 0 } []) (setLab 1) fun t => ended c 0 t && t.d.kvx.watches.isEmpty) = true ∧
    waitsOn 1 0x15 { entry [] 0 0 with ks := 0 } id id (fun c _ t => ended c 0x2002 t) = true := by decide +kernel

theorem test_snapshot :
    turnOf (labQ 1 id) 1 0x16 (entry [] 0 0) [] (fun c s' => (s'.d.adminFault c).isNone && s'.d.ledger c 128 != .wait &&
      after (.snapshot 1 (entry [] 0 0) []) (labQ 1 id) fun t => ended c 0 t &&
        t.d.kvx.store.snaps == [{ slot := 0, gen := 1, tenant := 1, kss := [1], horizon := 8 }]) = true ∧
    turnOf (setLab 1) 1 0x17 { entry [] 0 0 with ks := 0, operand := 256 } [] (fun c s' => (s'.d.sanitizeFault 0x17 10).isNone &&
      s'.d.ledger c 128 != .wait &&
      after (.snapclose 1 { entry [] 0 0 with ks := 0, operand := 256 } []) (setLab 1) fun t => ended c 0 t && t.d.kvx.store.snaps.isEmpty)
      = true ∧
    turnOf (setLab 1) 1 0x17 { entry [] 0 0 with ks := 0, operand := 512 } [] (fun c _ =>
      after (.snapclose 1 { entry [] 0 0 with ks := 0, operand := 512 } []) (setLab 1) fun t => ended c 0x3002 t) = true := by decide +kernel

/-- 256 open snapshots: no slot is free. -/
def fullSnaps : State :=
  labQ 1 fun d => d.onKvx fun k => { k with store := { k.store with snaps := (List.range 256).map fun i => { labSnap with slot := i } } }

theorem test_snapshot_full :
    turnOf fullSnaps 1 0x16 (entry [] 0 0) [] (fun c s' => (s'.d.adminFault c).isNone &&
      after (.snapshot 1 (entry [] 0 0) []) fullSnaps fun t => ended c 0x4003 t) = true := by decide +kernel

def zeroEntry : Sqe := { entry [] 0 0 with ks := 0 }

/-- A committed value not yet programmed, of an earlier command of the connection. -/
def dirtyLab : State :=
  labQ 1 fun d => d.onKvx fun k => { k with log := [{ serial := 3, domain := 2, strict := true, conn := 0, sq := 1, ord := 0, keys := .none
                                                      effs := [], vals := [], lone := 1, admitted := true, media := false, journaled := false
                                                      cqeDone := true }] }

/-- An earlier command of the other SQ of the connection that has no CQE yet. -/
def busyCtx : Ctx := { sq := 0, ord := 40, abs := 0, conn := 0, tenant := 1, avail := 0, op := 0x46, arrived := true, started := true }

theorem test_flush_barrier :
    turnOf (labQ 1 id) 1 0x18 zeroEntry [] (fun c s' => s'.d.flushReady c &&
      after (.flush 1 zeroEntry []) (labQ 1 id) fun t => ended c 0 t) = true ∧
    turnOf dirtyLab 1 0x18 zeroEntry [] (fun c s' => !s'.d.flushReady c &&
      after (.flush 1 zeroEntry []) dirtyLab fun t => !ended c 0 t) = true ∧
    turnOf (labQ 1 id) 1 0x19 zeroEntry [] (fun c s' => s'.d.barrierReady c &&
      after (.barrier 1 zeroEntry []) (labQ 1 id) fun t => ended c 0 t) = true ∧
    turnOf (labQ 1 fun d => d.onKvx fun k => { k with ctxs := [busyCtx] }) 1 0x19 zeroEntry [] (fun c s' => !s'.d.barrierReady c &&
      after (.barrier 1 zeroEntry []) (labQ 1 fun d => d.onKvx fun k => { k with ctxs := [busyCtx] }) fun t => !ended c 0 t) = true := by
  decide +kernel

/-- The descriptor of key space `id` of index kind `ix` with modify mask `mask`, byte quota 100, no access list. -/
def descBytes (id ix mask : Nat) : Bytes :=
  padTo 128 (leBytes 2 id ++ leBytes 1 ix ++ [0, 0] ++ leBytes 1 mask ++ leBytes 2 0xFFFF ++ leBytes 8 100 ++ leBytes 8 100)

def ksEntry (id : Nat) : Sqe := { entry [] 128 0 with ks := BitVec.ofNat 16 id }

/-- What the key space commands ask of the state. -/
def adminOk (c : Ctx) (s : State) : Bool := (s.d.adminFault c).isNone && s.d.ledger c 128 != .wait

theorem test_kscreate :
    turnOf (labQ 0 id) 0 0x40 (ksEntry 2) [(0x5000, descBytes 2 0 0)] (fun c s' => adminOk c s' &&
      (parseDescriptor c.e.ksId true (c.value 0)).isSome && (s'.d.kvx.store.slotKey 0xFFFF).isSome &&
      after (.kscreate 0 (ksEntry 2) [(0x5000, descBytes 2 0 0)]) (labQ 0 id) fun t => ended c 0 t &&
        (t.d.kvx.store.ks? 2).map (fun k => (k.hwm, k.serial, k.acl, k.byteQuota)) == some (0, 1, [{ tenant := 1, rights := 7 }], 100)) = true ∧
    turnOf (labQ 0 id) 0 0x40 (ksEntry 1) [(0x5000, descBytes 1 0 0)] (fun c _ =>
      after (.kscreate 0 (ksEntry 1) [(0x5000, descBytes 1 0 0)]) (labQ 0 id) fun t => ended c 0x1002 t) = true := by decide +kernel

/-- A started command of SQ 1 on key space 1. -/
def onKs1 : Ctx := { sq := 1, ord := 40, abs := 0, conn := 0, tenant := 1, avail := 0, op := 0x01, e := entry [65] 64 0, arrived := true, started := true }

theorem test_ksdelete :
    turnOf (labQ 0 id) 0 0x41 (entry [] 0 0) [] (fun c s' => adminOk c s' && !c.ran && (s'.d.enteredOn c).isEmpty &&
      after (.ksdelete 0 (entry [] 0 0) []) (labQ 0 id) fun t => ended c 0 t && t.d.kvx.store.kss.isEmpty && t.d.kvx.store.recs.isEmpty) = true ∧
    turnOf (labQ 0 fun d => d.onKvx fun k => { k with ctxs := [onKs1] }) 0 0x41 (entry [] 0 0) [] (fun c s' => adminOk c s' && !(s'.d.enteredOn c).isEmpty &&
      after (.ksdelete 0 (entry [] 0 0) []) (labQ 0 fun d => d.onKvx fun k => { k with ctxs := [onKs1] }) fun t => !ended c 0 t && t.d.kvx.deleting == [1])
      = true := by decide +kernel

/-- KSDELETE waits for its turn when a snapshot is opened: the turn meets it. -/
theorem test_ksdelete_covered :
    turnOf (labQ 0 id) 0 0x41 (entry [] 0 0) [] (fun c s' =>
      let s : State := { s' with d := s'.d.onKvx fun k => { k with store := { k.store with snaps := [labSnap] } } }
      s.d.kvx.store.covered 1 && (match (s.turnCtx c).d.ctx? c.sq c.ord with
        | some x => x.settled && x.res == .conflict 10 2 6
        | none => false)) = true := by decide +kernel

/-- A KSDELETE that has waited for the commands on its key space. -/
theorem test_ksdelete_waited :
    waitsOn 0 0x41 (entry [] 0 0) (fun c => { c with ran := true }) (fun d => d.onKvx fun k => { k with deleting := [1] }) (fun c s t =>
      adminOk c s && !s.d.ksBusy c.marks && ended c 0 t && t.d.kvx.deleting.isEmpty && t.d.kvx.store.kss.isEmpty) = true := by decide +kernel

/-- A WATCH of a connection that has begun to close leaves no watch. -/
theorem test_watch_closing :
    waitsOn 1 0x14 watchEntry (fun c => { c with pat := watchBlock }) (fun d => d.onConn 0 fun x => { x with state := .closing }) (fun c s t =>
      s.d.isClosing c.conn && ended c 0 t && t.d.kvx.watches.isEmpty) = true := by decide +kernel

theorem test_ksmodify :
    turnOf (labQ 0 id) 0 0x42 (ksEntry 1) [(0x5000, descBytes 1 1 2)] (fun c s' => adminOk c s' &&
      (parseDescriptor c.e.ksId false (c.value 0)).isSome &&
      after (.ksmodify 0 (ksEntry 1) [(0x5000, descBytes 1 1 2)]) (labQ 0 id) fun t => ended c 0 t &&
        t.d.kvx.store.kss == [{ labKs with byteQuota := 100 }]) = true ∧
    waitsOn 0 0x42 (ksEntry 1) (fun c => { c with vals := [(0, descBytes 1 0 2)] }) id (fun c s t => (s.d.adminFault c).isNone &&
      ((parseDescriptor c.e.ksId false (c.value 0)).bind fun x => labKs.differs x.1).isSome && ended c 0x3001 t && t.d.kvx.store.kss == [labKs])
      = true := by decide +kernel

/-! Queues and ABORT (QueueCommands). -/

/-- QCREATE of a CQ (`cq`) or of an SQ on CQ `on`, of depth 64. -/
def qcreateEntry (cq : Bool) (on : Nat) : Sqe :=
  { adminEntry 0 (leBytes 4 1 ++ leBytes 4 64 ++ leBytes 2 on ++ (if cq then [1, 0] ++ leBytes 2 1 ++ leBytes 2 1 else [0, 1] ++ leBytes 4 0))
    with operand := 0x40000 }

theorem test_qcreate :
    turnOf (labQ 0 id) 0 0x43 (qcreateEntry true 0) [] (fun c s' => (s'.d.adminFault c).isNone && s'.d.hq.freeCq == some 1 &&
      after (.qcreate 0 (qcreateEntry true 0) []) (labQ 0 id) fun t => ended c 0 t && (t.d.cq? 1).map (·.depth) == some 64) = true ∧
    turnOf (labQ 0 id) 0 0x43 (qcreateEntry false 0) [] (fun c s' => (s'.d.adminFault c).isNone && s'.d.hq.freeSq == some 2 &&
      after (.qcreate 0 (qcreateEntry false 0) []) (labQ 0 id) fun t => ended c 0 t && (t.d.sq? 2).map (·.cq) == some 0) = true ∧
    waitsTurn 0x43 (qcreateEntry false 9) id (fun c _ t => ended c 0x2002 t) = true := by decide +kernel

/-- The laboratory with a second CQ. -/
def twoCqs : State := labQ 0 fun d => d.onHq fun h => { h with cqs := h.cqs ++ [labCq 1 false] }

/-- The same, with SQ 1 bound to it. -/
def boundCq : State := labQ 0 fun d => (d.onHq fun h => { h with cqs := h.cqs ++ [labCq 1 false] }).onSq 1 fun x => { x with cq := 1 }

theorem test_qdelete :
    turnOf (labQ 0 id) 0 0x44 ((adminEntry 0 [1]).withBit 2 false) [] (fun c s' => (s'.d.adminFault c).isNone &&
      (s'.d.sq? 1).any (s'.d.sqDrained ·) &&
      after (.qdeleteSq 0 (adminEntry 0 [1]) []) (labQ 0 id) fun t => ended c 0 t && (t.d.sq? 1).isNone) = true ∧
    turnOf (labQ 0 fun d => d.onKvx fun k => { k with ctxs := [onKs1] }) 0 0x44 ((adminEntry 0 [1]).withBit 2 false) [] (fun _ s' =>
      (s'.d.sq? 1).any (!s'.d.sqDrained ·) &&
      after (.qdeleteSq 0 (adminEntry 0 [1]) []) (labQ 0 fun d => d.onKvx fun k => { k with ctxs := [onKs1] }) fun t => (t.d.sq? 1).any (·.closing)) = true ∧
    waitsTurn 0x44 (adminEntry 0 [0]) id (fun c _ t => ended c 0x2002 t) = true ∧
    waitsTurn 0x44 (adminEntry 0 [9, 0, 1]) id (fun c _ t => ended c 0x2002 t) = true ∧
    turnOf (boundCq) 0 0x44 ((adminEntry 0 [1]).withBit 2 true) [] (fun c _ =>
      after (.qdeleteCq 0 (adminEntry 0 [1]) []) boundCq fun t => ended c 0x3001 t) = true ∧
    turnOf twoCqs 0 0x44 ((adminEntry 0 [1]).withBit 2 true) [] (fun c _ =>
      after (.qdeleteCq 0 (adminEntry 0 [1]) []) twoCqs fun t => ended c 0 t && (t.d.cq? 1).isNone) = true := by decide +kernel

/-- SQ 1 frozen at its first entry, with its error record written. -/
def frozenLab : State :=
  labQ 0 fun d => d.onHq fun h => { h with sqs := h.sqs.map fun x => if x.id = 1 then
    { x with tail := 3, fetched := 3, head := 3, freeze := some { failOrd := 0, failAbs := 0, tag := 0, op := 1, res := .failed 0x1001 10, freezeAbs := 3
                                                                  tail := 3, life := 0, firstTag := none, lastTag := 0, count := 0, recSeq := some 1 } } else x }

theorem test_qrestart :
    turnOf frozenLab 0 0x45 ((adminEntry 0 [1, 0, 0, 0, 1]).withBit 2 false) [] (fun c s' => (s'.d.adminFault c).isNone &&
      after (.qrestartResume 0 (adminEntry 0 [1, 0, 0, 0, 1]) []) frozenLab fun t => ended c 0 t &&
        (t.d.sq? 1).map (fun x => (x.freeze, x.fetched)) == some (none, 1)) = true ∧
    turnOf frozenLab 0 0x45 ((adminEntry 0 [1]).withBit 2 true) [] (fun c _ =>
      after (.qrestartDiscard 0 (adminEntry 0 [1]) []) frozenLab fun t => ended c 0 t && (t.d.sq? 1).map (·.fetched) == some 3) = true ∧
    turnOf (labQ 0 id) 0 0x45 ((adminEntry 0 [1]).withBit 2 false) [] (fun c _ =>
      after (.qrestartResume 0 (adminEntry 0 [1]) []) (labQ 0 id) fun t => ended c 0x3001 t) = true := by decide +kernel

/-- A command of SQ 1 that waits for a domino. -/
def dominoCtx : Ctx := { onKs1 with started := false, wait := .domino 1 39 }

theorem test_abort :
    turnOf (labQ 0 fun d => d.onKvx fun k => { k with ctxs := [dominoCtx] }) 0 0x46 (adminEntry 0 (leBytes 2 1 ++ leBytes 2 0)) [] (fun c s' =>
      (s'.d.adminFault c).isNone && (s'.d.target 1 0).isSome && s'.d.soleCtx 1 40 &&
      after (.abort 0 (adminEntry 0 (leBytes 2 1 ++ leBytes 2 0)) []) (labQ 0 fun d => d.onKvx fun k => { k with ctxs := [dominoCtx] }) fun t =>
        ended c 0 t && (t.d.ctx? 1 40).any fun x => x.settled && x.res.status == 0x7003) = true ∧
    turnOf (labQ 0 id) 0 0x46 (adminEntry 0 (leBytes 2 1 ++ leBytes 2 0)) [] (fun c _ =>
      after (.abort 0 (adminEntry 0 (leBytes 2 1 ++ leBytes 2 0)) []) (labQ 0 id) fun t => ended c 0 t &&
        (t.d.ctx? c.sq c.ord).map (·.res.b) == some (leBytes 2 0x7004)) = true ∧
    turnOf (labQ 0 id) 0 0x46 (adminEntry 0 (leBytes 2 0 ++ leBytes 2 0)) [] (fun c _ =>
      after (.abort 0 (adminEntry 0 (leBytes 2 0 ++ leBytes 2 0)) []) (labQ 0 id) fun t => ended c 0x2002 t) = true := by decide +kernel

/-! Registers, log pages, IDENTIFY, keys (AdminReads, KeyCommands). `openBlob` answers a key only for the drive whose secret the blob
was made for: `Config.deviceSecret` is open, so that clause has no evaluated witness. -/

/-- An admin entry of SQ 0 and what holds after its turn. -/
def adminTest (f : Drive → Drive) (i : Sqe → HostMem → Instr) (op vlen : Nat) (cmd : Bytes) (m : HostMem)
    (p : Ctx → State → State → Bool) : Bool :=
  turnOf (labQ 0 f) 0 op (adminEntry vlen cmd) m fun c s' => (s'.d.adminFault c).isNone &&
    after (i (adminEntry vlen cmd) m) (labQ 0 f) fun t => p c s' t

def mem4 : HostMem := [(0x5000, [1, 0, 0, 0])]

theorem test_reg :
    adminTest id (.regRead 0) 0x47 64 [0x10, 0, 2] [] (fun c s' t => (s'.d.conn? c.conn).isSome && s'.d.sys.posted.isEmpty &&
      (t.d.ctx? 0 c.ord).any fun x => x.turned && x.res.len == 8) = true ∧
    adminTest id (.regWrite 0) 0x48 4 [0x10, 0x50, 1] mem4 (fun c s' t => ended c 0 t &&
      t.d.sys == { s'.d.sys with posted := [{ path := .admin, off := 0x5010, val := 1 }] }) = true := by decide +kernel

theorem test_logread :
    adminTest id (.logread 0) 0x49 64 [7] [] (fun c s' t => (s'.logPage c 0 64).1 == 32 && (t.d.ctx? 0 c.ord).any fun x => x.turned && x.res.len == 32) = true ∧
    adminTest id (.logread 0) 0x49 64 [7, 0, 0, 0, 64] [] (fun c s' t => (s'.logPage c 64 64).1 == 32 && ended c 0x1004 t) = true := by
  decide +kernel

theorem test_identify :
    turnOf (labQ 0 id) 0 0x55 { adminEntry 256 [1] with ks := 1 } [] (fun c s' => (s'.identifyData c).isSome && (s'.d.conn? c.conn).isSome &&
      after (.identify 0 { adminEntry 256 [1] with ks := 1 } []) (labQ 0 id) fun t => (t.d.ctx? 0 c.ord).any fun x => x.turned && x.res.len == 136)
      = true ∧
    waitsTurn 0x55 { adminEntry 256 [1] with ks := 2 } id (fun c s t => (s.d.kvx.store.ks? c.e.ksId).isNone && ended c 0x8001 t) = true := by
  decide +kernel

theorem test_evfreeze :
    adminTest id (.evfreeze 0) 0x4A 0 [] [] (fun c s' t => ended c 0 t && t.d.evr.freeze == some s'.d.clk.life) = true ∧
    adminTest (fun d => d.onEvr fun e => { e with freeze := some 5 }) (.evthaw 0) 0x4B 0 [] [] (fun c _ t => ended c 0 t &&
      t.d.evr.freeze == none && t.d.evr.lift == 1) = true := by decide +kernel

/-- The laboratory with a cipher key in slot 3. -/
def slotLab (d : Drive) : Drive :=
  d.onKvx fun k => { k with store := { k.store with slots := [{ slot := 3, key := [7], persistent := true }] } }

/-- The laboratory with tenants 1 (administrator) and 2. -/
def twoTenants (d : Drive) : Drive :=
  d.onKvx fun k => { k with store := { k.store with tenants := k.store.tenants ++ [{ id := 2, key := [2], admin := false }] } }

def badBlob : HostMem := [(0x5000, fill 192 0)]

theorem test_keyload :
    waitsTurn 0x4C (adminEntry 192 [0, 0, 3]) slotLab (fun c s t => (s.d.kvx.store.slotKey 3).isSome && ended c 0x3001 t) = true ∧
    adminTest id (.keyloadSlot 0) 0x4C 192 [0, 0, 3] badBlob (fun c s' t => (s'.d.kvx.store.slotKey 3).isNone && !s'.d.noCore true true &&
      ended c (blobRes 0xFF).status t && t.d.cry.blobF == 1 && t.d.events 0x1C0 == 1) = true ∧
    adminTest id (.keyloadTenant 0) 0x4C 192 [1, 0, 0, 0, 2] badBlob (fun c s' t => (s'.d.kvx.store.tenantFault 2 false).isNone &&
      !s'.d.noCore true true && ended c (blobRes 0xFF).status t && t.d.kvx.store == s'.d.kvx.store) = true ∧
    adminTest id (.tokenKeyRotation 0) 0x4C 0 [2] [] (fun c s' t => s'.d.ledger c 128 != .wait && ended c 0 t && t.d.kvx.store.epoch == 1)
      = true := by decide +kernel

theorem test_keydrop :
    adminTest slotLab (.keydropSlot 0) 0x4D 0 [0, 0, 3] [] (fun c s' t => s'.d.ledger c 128 != .wait && ended c 0 t &&
      t.d.kvx.store.slots.isEmpty) = true ∧
    adminTest id (.keydropSlot 0) 0x4D 0 [0, 0, 3] [] (fun c _ t => ended c 0x1001 t) = true ∧
    adminTest twoTenants (.keydropTenant 0) 0x4D 0 [1, 0, 0, 0, 2] [] (fun c s' t => s'.d.ledger c 128 != .wait && ended c 0 t &&
      t.d.kvx.store.tenants.map (·.id) == [1] && t.d.events 0x099 == 1) = true ∧
    adminTest id (.keydropTenant 0) 0x4D 0 [1, 0, 0, 0, 1] [] (fun c _ t => ended c 0x3001 t) = true ∧
    adminTest id (.keydropTenant 0) 0x4D 0 [1, 0, 0, 0, 9] [] (fun c _ t => ended c 0x1001 t) = true := by decide +kernel

/-! Modes, self-tests, SANITIZE, firmware (ModeTestSanitize, FirmwareCommands). -/

/-- A mode change to IDLE runs. -/
def changing (d : Drive) : Drive :=
  d.onPwr fun p => { p with change := some { target := 5, cmd := none, byPwr := true, before := 3, drained := false } }

/-- A short self-test runs. -/
def oneTest (d : Drive) : Drive :=
  d.onUpd fun u => { u with tests := [{ kind := 1, state := 1, part := 0, unit := 0, loc := 0, read := 0, step2 := 0, waited := 0, pct := 0
                                        start := 0, stop := 0 }] }

theorem test_setmode :
    adminTest id (.setmode 0) 0x4E 0 [5] [] (fun c s' t => s'.d.pwr.change.isNone && (s'.d.modeRefusal 5).isNone && ended c 0 t &&
      t.d.pwr.change.any fun x => x.target == 5) = true ∧
    adminTest id (.setmode 0) 0x4E 0 [3] [] (fun c s' t => (s'.d.modeRefusal 3).isNone && ended c 0 t) = true ∧
    adminTest oneTest (.setmode 0) 0x4E 0 [8] [] (fun c s' t => (s'.d.modeRefusal 8).isSome &&
      ended c 0x3001 t) = true ∧
    adminTest changing (.setmode 0) 0x4E 0 [4] [] (fun c s' t => t.d.pwr == s'.d.pwr && !ended c 0 t) = true := by decide +kernel

def inStage (n : Nat) (d : Drive) : Drive := d.onUpd fun u => { u with stage := n }

theorem test_selftest :
    adminTest id (.selftestShort 0) 0x4F 0 [1] [] (fun c s' t => !s'.d.upd.activating && ended c 0 t &&
      t.d.upd.tests.map (fun x => (x.kind, x.state)) == [(1, 1)]) = true ∧
    waitsTurn 0x4F (adminEntry 0 [1]) (inStage 3) (fun c s t => s.d.upd.activating && ended c 0x3001 t) = true ∧
    waitsTurn 0x4F (adminEntry 0 [1]) oneTest (fun c s t => s.d.upd.testing && ended c 0x3001 t) = true ∧
    adminTest id (.selftestExtended 0) 0x4F 0 [2] [] (fun c _ t => ended c 0 t && t.d.upd.tests.map (·.kind) == [2]) = true ∧
    adminTest oneTest (.selftestStop 0) 0x4F 0 [0xF] [] (fun c _ t => ended c 0 t && t.d.upd.tests.map (·.state) == [4]) = true ∧
    waitsTurn 0x4F (adminEntry 0 [0xF]) id (fun c _ t => ended c 0x3001 t) = true := by decide +kernel

theorem test_sanitize :
    adminTest id (.sanitize 0) 0x54 0 [1, 0, 0, 0, 0x49, 0x4E, 0x41, 0x53] [] (fun c s' t => s'.nv.wf && ended c 0 t && t.d.upd.sanState == 1 && t.d.upd.sanBlock &&
      t.d.upd.sanStep == 1 && t.d.events 0x1F7 == 1) = true ∧
    waitsTurn 0x54 (adminEntry 0 [1, 0, 0, 0, 0x49, 0x4E, 0x41, 0x53]) (inStage 3) (fun c _ t => ended c 0x3001 t) = true := by decide +kernel

def sector : HostMem := [(0x5000, fill 4096 7)]

theorem test_fwdownload :
    adminTest (inStage 1) (.fwdownload 0) 0x50 4096 [0, 0x10] sector (fun c s' _ => s'.nv.inactive == 1 && s'.d.upd.stage == 1 && s'.nv.wf &&
      (c.value 0).length == 4096) = true ∧
    adminTest (inStage 2) (.fwdownload 0) 0x50 4096 [0, 0x10] sector (fun c s' t => ended c 0x3001 t && t.nv == s'.nv) = true := by
  decide +kernel

theorem test_firmware :
    adminTest id (.fwverify 0) 0x51 0 [] [] (fun c s' t => !s'.d.noCore false true && s'.nv.verify s'.nv.inactive == 1 && ended c 0x8003 t &&
      t.d.upd.stage == 0) = true ∧
    adminTest (inStage 1) (.fwactivateReset 0) 0x52 0 [0] [] (fun c _ t => ended c 0 t && t.d.upd.stage == 2 && t.nv.boot.slot == 1 &&
      t.nv.boot.trial) = true ∧
    adminTest id (.fwactivateReset 0) 0x52 0 [0] [] (fun c _ t => ended c 0x3001 t) = true ∧
    adminTest (inStage 1) (.fwactivateLive 0) 0x52 0 [1] [] (fun c _ t => !ended c 0 t && t.d.upd.stage == 3 &&
      t.d.upd.actions.map (·.code) == [0x0E]) = true ∧
    adminTest id (.fwactivateLive 0) 0x52 0 [1] [] (fun c _ t => ended c 0x3001 t) = true ∧
    adminTest (inStage 4) (.fwconfirm 0) 0x53 0 [] [] (fun c s' t => s'.nv.wf && ended c 0 t && t.d.upd.stage == 0 && t.d.events 0x1F4 == 1) = true ∧
    adminTest id (.fwconfirm 0) 0x53 0 [] [] (fun c _ t => ended c 0x3001 t) = true := by decide +kernel

/-! The bank (MeasurementRounds, SectionsIsolated, BankRegisters). -/

/-- The laboratory with a bank of eight good sections: seven of them 205 times 10 uF at 34 V, section 7 at 180. -/
def goodBank (b : Bank) : Bank :=
  { b with first := false, sects := (List.range 8).map fun n => { Section.reset with cap := if n = 7 then 180 else 205, dt := if n = 7 then 7200 else 8200, esr := 40, vc := 136 } }

def labBank (f : Bank → Bank) : State := lab fun d => d.onBank fun b => f (goodBank b)

def inRound (n : Nat) (b : Bank) : Bank := { b with round := some n, measuring := true, vcNow := 136 }

/-- Where a section stands after a command. -/
def sectOf (n : Nat) (t : State) : Nat × Nat := ((t.d.bank.sect n).state, (t.d.bank.sect n).cause)

theorem wit_measurement_rounds :
    [ after .measurementRoundStart (labBank fun b => { b with again := true }) (fun t => t.d.bank.round == some 0)
    , after .measurementRoundStart (labBank id) (fun t => t == labBank id)
    , ((labBank fun b => { b with round := some 1 }).d.bank.next 1 == some 1 &&
      after (.sectionMeasurementStart 132) (labBank fun b => { b with round := some 1 }) fun t => sectOf 1 t == (1, 0) && t.d.bank.measuring)
    , after (.sectionDischargeDone 4400 200) (labBank (inRound 1)) (fun t => (t.d.bank.sect 1).cap == 110 && sectOf 1 t == (0, 0))
    , after .sectionRechargeDone (labBank (inRound 1)) (fun t => t.d.bank.round == some 2)
    , after .sectionRechargeDone (labBank (inRound 7)) (fun t => t.d.bank.round == none && t.d.bank.lastEnd == some 0)
    , after .sectionRechargeDone (labBank fun b => { inRound 7 b with en := true, sects := b.sects.map fun x => { x with cap := 10, dt := 400 } })
      (fun t => !t.d.bank.en && t.d.bank.lowE && t.d.events 0x010 == 1)
    , after .bankCharged (labBank fun b => { b with chg := true }) (fun t => t.d.bank.round == some 0 && !t.d.bank.chg) ].all id = true := by decide +kernel

/-- A register command: the drive that it reaches satisfies `h`, the state after it `p`. -/
def regTest (p : Path) (off : Nat) (i : Instr) (s : State) (h : Drive → Bool) (q : State → Bool) : Bool :=
  (s.reaches p off).any h && after i s q

theorem wit_sections_isolated :
    [ after (.sectionChargeTimeout 2) (labBank id) (fun t => sectOf 2 t == (2, 4))
    , after (.sectionShort 7) (labBank id) (fun t => sectOf 7 t == (2, 6) && t.d.events 0x014 == 1)
    , after (.sectionShort 7) (labBank (·.onSect 7 fun x => { x with state := 2 })) (fun t => t.d.events 0x014 == 0)
    , regTest .smbus 0x2140 (.sectionIsolateCmd .smbus 0xA503) (labBank id) (fun d => (d.bank.sect 3).state == 0) (fun t => sectOf 3 t == (2, 5))
    , regTest .smbus 0x2140 (.sectionIsolateCmd .smbus 0xA403) (labBank id) (fun _ => true) (fun t => t.d.bank.cmdErr)
    , after (.sectionDischargeDone 4399 50) (labBank (inRound 1)) (fun t => sectOf 1 t == (2, 1))
    , after (.sectionDischargeDone 4400 201) (labBank (inRound 1)) (fun t => sectOf 1 t == (2, 2))
    , after (.sectionMeasurementStart 131) (labBank fun b => { b.onSect 1 (fun x => { x with low := 1 }) with round := some 1 })
      (fun t => sectOf 1 t == (2, 3)) ].all id = true := by decide +kernel

/-- The worked example after R405: a bank in its twenty-fifth year. -/
theorem test_bank_energy : ((goodBank Bank.reset).onSect 6 fun x => { x with state := 2 }).energy = 6768 := by decide +kernel

theorem wit_bank_registers :
    [ regTest .smbus 0x2118 (.measureNow .smbus) (labBank id) (·.pwr.serving) (fun t => t.d.bank.round == some 0)
    , regTest .smbus 0x2118 (.measureNow .smbus) (labBank (inRound 1)) (·.pwr.serving) (fun t => t.d.bank.again && t.d.bank.round == some 1)
    , regTest .smbus 0x2100 (.stagecapWrite .smbus 0x1FFF) (labBank fun b => { b with emeas := 1600 }) (fun _ => true)
      (fun t => t.d.bank.stageCap == 4096 && t.d.bank.en)
    , regTest .smbus 0x2100 (.stagecapWrite .smbus 0) (labBank fun b => { b with en := true, emeas := 1600 }) (fun _ => true)
      (fun t => !t.d.bank.en)
    , ((labBank fun b => { b with en := true, emeas := 6000 }).d.ledger { onKs1 with op := 2 } 4096 == .admitted &&
     (labBank fun b => { b with en := true, emeas := 1600 }).d.ledger { onKs1 with op := 2 } 4096 == .unprotected true) ].all id = true := by decide +kernel

/-! Modes (ModeRequests, IdleEntryAndExit, Parking, WakesAndResume, PowerEdges, PowerWarnings). -/

def labPwr (f : Pwr → Pwr) : State := lab fun d => d.onPwr f

/-- A change to mode `m` that the drive or `PWR_CMD` started. -/
def changeTo (m : Nat) : Change := { target := m, cmd := none, byPwr := true, before := 3, drained := false }

theorem wit_mode_requests :
    [ regTest .smbus 0x2004 (.pwrCmdMode .smbus 0x4D000205) (labPwr id) (·.pwr.change.isNone)
      (fun t => t.d.pwr.change == some (changeTo 5) && t.d.pwr.capSel == 2)
    , regTest .smbus 0x2004 (.pwrCmdCap .smbus 0x4D000103) (labPwr id) (fun _ => true) (fun t => t.d.pwr.change == none && t.d.pwr.capSel == 1)
    , regTest .smbus 0x2004 (.pwrCmdMode .smbus 0x4D000005) (labPwr fun p => { p with change := some (changeTo 7) }) (fun _ => true)
      (fun t => t.d.pwr.cmdQ == [(5, 0)])
    , regTest .smbus 0x2004 (.pwrCmdMode .smbus 0x4C000005) (labPwr id) (fun _ => true) (fun t => t.d.pwr.cmdErr)
    , regTest .smbus 0x2004 (.pwrCmdCap .smbus 0x4C000003) (labPwr id) (fun _ => true) (fun t => t.d.pwr.cmdErr)
    , after .autoIdle (lab fun d => (d.onPwr fun p => { p with autoIdle := 2 }).onClk fun c => { c with life := 2000000000 })
      (fun t => (t.d.pwr.change.map (·.target)) == some 7) ].all id = true := by decide +kernel

theorem wit_idle :
    [ after .idleEntryDone (labPwr fun p => { p with change := some (changeTo 7) }) (fun t => t.d.pwr.cur == 7 && t.d.pwr.trans == 1)
    , ((lab fun d => (d.onPwr fun p => { p with cur := 7 }).onKvx fun k => { k with ctxs := [onKs1] }).d.idleLeaves &&
      after .idleExitDone (lab fun d => (d.onPwr fun p => { p with cur := 7 }).onKvx fun k => { k with ctxs := [onKs1] })
        fun t => t.d.pwr.cur == 3)
    , after .idleExitDone (labPwr fun p => { p with cur := 7, last := 4, change := some (changeTo 4) }) (fun t => t.d.pwr.cur == 4) ].all id = true := by decide +kernel

theorem wit_parking :
    [ after .parkDrainDone (labPwr fun p => { p with change := some (changeTo 8) }) (fun t => t.d.pwr.change.any (·.drained))
    , after .parkPowerDown (labPwr fun p => { p with change := some { changeTo 8 with drained := true } })
      (fun t => t.d.pwr.cur == 8 && t.d.xpt.conns.isEmpty && t.d.events 0x018 == 1)
    , after .pwrGoodLow (labPwr fun p => { p with cur := 9 }) (fun t => t.d.pwr.cur == 8 && !t.d.pwr.good)
    , after .pwrGoodLow (labPwr id) (fun t => t.d.pwr.cur == 3 && !t.d.pwr.good) ].all id = true := by decide +kernel

/-- Parked, with main power off. -/
def parked (p : Pwr) : Pwr := { p with cur := 8, good := false, mainOk := false }

theorem wit_wakes :
    [ after .wakePin (labPwr parked) (fun t => t.d.pwr.resume == some 3 && t.d.pwr.req && t.d.pwr.why == 2)
    , after .rtcAlarm (lab fun d => (d.onPwr fun p => { parked p with alarm := 5 }).onClk fun c => { c with installed := 5 })
      (fun t => t.d.pwr.resume == some 3 && t.d.pwr.alarm == 0 && t.d.pwr.wakeSrc == 3)
    , after .rtcAlarm (labPwr fun p => { parked p with alarm := 5 }) (fun t => t.d.pwr.resume == none)
    , ((lab fun d => d.onPwr fun p => { parked p with share := true }).d.wakeFrom 2 1 5).wakeLow
    , after .rtcScrubWake (lab fun d => (d.onPwr parked).onClk fun c => { c with installed := 86400 * 30 })
      (fun t => t.d.pwr.resume == some 9 && t.d.scrubState == 3)
    , after .powerGrant (labPwr fun p => { parked p with resume := some 9 }) (fun t => t.d.pwr.cur == 9 && t.d.scrubState == 2)
    , after .powerGrant (labPwr fun p => { parked p with resume := some 3 }) (fun t => t.d.pwr.cur == 8 && t.d.pwr.good)
    , after .resumeDone (labPwr fun p => { p with cur := 8, resume := some 3 }) (fun t => t.d.pwr.cur == 3 && t.d.bank.chg) ].all id = true := by decide +kernel

def flushOk : Flush := { sealed := true, ckpt := true, ms := 100 }

theorem wit_power_edges :
    [ after (.mainPowerLoss flushOk) (labPwr id) (fun t => t.d.pwr.cur == 0 && t.d.pwr.trans == 2 && t.d.bank.holdUps == 1)
    , after (.resetAssert flushOk) (labPwr id) (fun t => t.d.pwr.cur == 0 && !t.d.pwr.resetN && t.d.bank.sealOk)
    , after (.thermalShutdown 951 flushOk) (labPwr id) (fun t => t.d.pwr.cur == 0 && t.d.pwr.shut)
    , after (.mainPowerLoss flushOk) (labPwr parked) (fun t => t.d.pwr.cur == 8)
    , after (.resetAssert flushOk) (labPwr fun p => { p with cur := 1 }) (fun t => t.d.pwr.cur == 0)
    , after (.auxRise 5) (labPwr parked) (fun t => t.d.pwr.cur == 0 && t.d.mgmt.slotId == 5)
    , after .auxLoss (labPwr parked) (fun t => !t.d.pwr.aux && t.d.evr.front.isEmpty)
    , after .auxLoss (labPwr id) (fun t => !t.d.pwr.aux && t.d.pwr.cur == 3)
    , after .bootEntry (labPwr fun p => { p with cur := 0 }) (fun t => t.d.pwr.cur == 1 && t.d.bank.chg) ].all id = true := by decide +kernel

theorem wit_power_warnings :
    [ after (.pwrMainLow 10800) (labPwr id) (fun t => t.d.events 0x013 == 1) && after (.pwrMainLow 10801) (labPwr id) (fun t => t.d.events 0x013 == 0)
    , after (.thermalWarn 851) (labPwr id) (fun t => t.d.pwr.capTherm == 1 && t.d.pwr.capEff == 1 && t.d.events 0x003 == 1)
    , after (.thermalRecover 800) (labPwr fun p => { p with capTherm := 1 }) (fun t => t.d.pwr.capTherm == 1)
    , after (.thermalRecover 800) (lab fun d => (d.onPwr fun p => { p with capTherm := 1, hotAt := 1 }).onClk fun c => { c with life := 60000000001 })
        (fun t => t.d.pwr.capTherm == 3) ].all id = true := by decide +kernel

/-! Recorder, clocks, events (RecorderAndClocks, EventOccurrence). -/

def labEv (n : Nat) : EvRec :=
  { seq := n, life := 0, wall := 0, src := 1, sev := 0, frozen := false, parked := false, count := 1, data := fill 24 0 }

theorem wit_recorder :
    [ after .recordMove (lab fun d => d.onEvr fun e => { e with front := [labEv 5000] }) (fun t => t.d.evr.front.isEmpty &&
      t.d.evr.carousel == [labEv 5000] && t.nv == State.reset.nv)
    , after .recordMove (lab fun d => d.onEvr fun e => { e with front := [labEv 4096] }) (fun t => t.d.evr.birth == 1 &&
      t.nv.read (birthBase + 64 * 4095) 64 == (labEv 4096).bytes)
    , after .recordMove (lab fun d => d.onEvr fun e => { e with front := [labEv 1], freeze := some 0 }) (fun t => t.d.evr.front.length == 1)
    , after .freezeTimeout (lab fun d => (d.onEvr fun e => { e with freeze := some 0 }).onClk fun c => { c with life := 10000000000 })
      (fun t => t.d.evr.freeze == none && t.d.evr.lift == 3 && t.d.events 0x1F1 == 1)
    , after .lifeClockJournal (lab fun d => d.onClk fun c => { c with life := 7 }) (fun t => t.d.clk.lifeJour == 7)
    , after .lifeClockJournal (labPwr parked) (fun t => t == labPwr parked)
    , regTest .smbus 0xD210 (.timeSet .smbus 0x54000001) (lab fun d => d.onPath .smbus fun x => { x with staging := [(0xD208, 9)] })
      (fun d => d.staged .smbus 0xD208 == 9) (fun t => t.d.clk.wallSet && t.d.clk.wall == 9 && t.d.events 0x005 == 1)
    , regTest .smbus 0xD210 (.timeSet .smbus 0x53000001) (lab id) (fun _ => true) (fun t => t.d.clk.timeErr) ].all id = true := by decide +kernel

/-- Source 0x002 latches on its first occurrence; source 0x0FF is in no catalogue row. -/
theorem wit_event :
    [ (catalogue 2).isSome && catalogue 0xFF == none
    , (let r := labDrive.occur 2 [1]; r.1 && r.2.events 2 == 1 && r.2.evr.front.map (·.seq) == [1]) ].all id = true := by decide +kernel

/-! The pipeline (FetchAndData, WaitingCommandsStart, CommandsSettle, Completions). -/

/-- A change of the first command context of the laboratory, a GET of SQ 1. -/
def labCtx (f : Ctx → Ctx) (g : Drive → Drive) : State := lab fun d => g (d.onKvx fun k => { k with ctxs := [f onKs1] })

/-- The request that the drive has open on connection 0. -/
def reqOn (r : Req) (d : Drive) : Drive := d.onConn 0 fun x => { x with unacked := [r] }
def readReq (w : ReqFor) (n : Nat) : Req := { kind := .read n, what := w, addr := 0x5000, rkey := 1, data := [], psn := 0, npsn := 1 }
def writeReq (w : ReqFor) : Req := { kind := .write, what := w, addr := 0x5000, rkey := 1, data := [1], psn := 3, npsn := 1 }

/-- A PUT of SQ 1 that waits for 3 value bytes. -/
def reading3 (c : Ctx) : Ctx :=
  { c with op := 2, reads := [{ what := .value 0, addr := 0x5000, rkey := 1, len := 3, issued := true }] }

theorem wit_fetch_data :
    [ after (.sqeFetchIssue 1 32 false) (labQ 1 id) (fun t => t.d.kvx.ctxs.length == 1 && (t.d.sq? 1).any fun x => x.fetched == 1)
    , !(labQ 1 id).d.catchUpReady && !(labQ 1 id).d.roundOver && (labQ 1 id).d.turnSq? == some (labSq 1 false) && (labQ 1 id).d.readFree 0
    , after (.sqeArrival 1 [1 :: fill 127 0]) (labCtx (fun c => { c with arrived := false, started := false })
        (reqOn (readReq (.sqe 1 [40]) 128))) (fun t => (t.d.sq? 1).any (·.head == 1) && (t.d.ctx? 1 40).any (·.arrived))
    , after (.sqeArrival 1 [0xEE :: fill 127 0]) (labCtx (fun c => { c with arrived := false, started := false })
        (reqOn (readReq (.sqe 1 [40]) 128))) (fun t => (t.d.ctx? 1 40).any fun c => c.fail.any (·.status == 0x2001))
    , after (.valueDataArrival 1 0 [1, 2, 3]) (labCtx reading3 (reqOn (readReq (.data 1 40) 3)))
        (fun t => (t.d.ctx? 1 40).any fun c => c.vals == [(0, [1, 2, 3])] && c.reads.isEmpty)
    , after (.rdmaReadRefused 1 (some 0)) (labCtx reading3 (reqOn (readReq (.data 1 40) 3)))
        (fun t => (t.d.ctx? 1 40).any fun c => c.fail.any (·.status == 0x6001))
    , after (.rdmaReadRefused 1 none) (labCtx (fun c => { c with arrived := false, started := false }) (reqOn (readReq (.sqe 1 [40]) 128)))
        (fun t => (t.d.sq? 1).any (·.faulted) && t.d.kvx.ctxs.isEmpty && t.d.events 0x091 == 1) ].all id = true := by decide +kernel

/-- The command has not started and waits. -/
def asWait (w : Wait) (c : Ctx) : Ctx := { c with started := false, wait := w }

/-- A request-ID entry of tenant 1, ID 7: PUT succeeded at version 4. -/
def labWin : WinEntry := { num := 1, tenant := 1, reqId := 7, status := 0, version := 4, life := 0, serial := some 1 }

theorem wit_waiting :
    [ after (.dominoResolve 1 0) (labCtx (asWait (.domino 1 39)) (fun d => d.onSq 1 fun q => { q with recent := [{ tag := 0xFFFF, status := 0, avail := 0, ord := 39, disc := false }] }))
        (fun t => (t.d.ctx? 1 40).any (·.started))
    , after (.barrierRelease 1 0) (labCtx (asWait .barrier) id) (fun t => (t.d.ctx? 1 40).any (·.started))
    , after (.dedupRepeatRelease 1 0) (labCtx (fun c => { c with op := 2, wait := .dedup, e := { c.e with flags := 2, reqId := 7 } })
        (fun d => d.onKvx fun k => { k with window := [labWin] })) (fun t => (t.d.ctx? 1 40).any fun c => c.fail.any (·.status == 1))
    , after .windowEntryExpiry (lab fun d => (d.onKvx fun k => { k with window := [labWin] }).onClk fun c => { c with life := 600000000000 })
        (fun t => t.d.kvx.window.isEmpty)
    , after .windowEntryExpiry (lab fun d => (d.onKvx fun k => { k with window := [labWin] }).onClk fun c => { c with life := 599999999999 })
        (fun t => t.d.kvx.window == [labWin]) ].all id = true := by decide +kernel

theorem wit_settle :
    [ after (.settle 1 0) (labCtx (fun c => { c with turned := true, res := { len := 9 } }) id) (fun t => (t.d.ctx? 1 40).any fun c => c.settled && c.res.len == 9)
    , after (.discardedSettle 1 0) (labCtx (fun c => { c with discarded := true }) id) (fun t => (t.d.ctx? 1 40).any (·.res.status == 0x7001))
    , after (.abortedSettle 1 0) (labCtx (fun c => { c with marked := some (5, 0) }) id)
        (fun t => (t.d.ctx? 1 40).any fun c => c.res.status == 0x7003 && c.res.b == [5, 0, 0, 0])
    , after (.turn 1 0) (labCtx (fun c => { c with fail := some (.failed 0x8001 4) }) id)
        (fun t => (t.d.ctx? 1 40).any fun c => c.settled && c.res == .failed 0x8001 4) ].all id = true := by decide +kernel

/-- An entry of a SEND queue of event CQEs; a check for the laboratory's watch. -/
def labCheck : Check := { serial := 2, ks := 1, key := [66], kind := 2, version := 4 }

def labFreeze : Freeze :=
  { failOrd := 40, failAbs := 0, tag := 0, op := 1, res := .failed 0x1001 10, freezeAbs := 1, tail := 1, life := 0, firstTag := none, lastTag := 0
    count := 0, recSeq := none }

theorem wit_completions :
    [ after (.cqeWrite 1 0) (labCtx (fun c => { c with turned := true, settled := true }) id)
        (fun t => (t.d.cq? 0).any (·.tail == 1) && (t.d.ctx? 1 40).any (·.cqe))
    , after (.notificationTimer 0) (lab fun d => d.onCq 0 fun q => { q with since := 2, tail := 2 })
        (fun t => (t.d.cq? 0).any (·.since == 0) && (t.d.conn? 0).any fun x => x.unacked.any fun r => r.kind == .writeImm (2 * 65536))
    , after (.errorRecordWrite 1) (lab fun d => d.onSq 1 fun q => { q with freeze := some labFreeze })
        (fun t => (t.d.conn? 0).any (fun x => x.errs.map (·.seq) == [1]) && t.d.events 0x090 == 1)
    , after (.eventCqeRelease 0) (lab fun d => d.onConn 0 fun x => { x with events := [fill 32 0] })
        (fun t => (t.d.conn? 0).any (·.events.isEmpty) && (t.d.cq? 0).any (·.tail == 1))
    , after .watchCheck (lab fun d => d.onKvx fun k => { k with watches := [labWatch], checks := [labCheck] })
        (fun t => t.d.kvx.checks.isEmpty && t.d.kvx.watches == [{ labWatch with seq := 1 }])
    , after .watchCheck (lab fun d => d.onKvx fun k => { k with watches := [labWatch], checks := [{ labCheck with kind := 3 }] })
        (fun t => t.d.kvx.watches == [labWatch]) ].all id = true := by decide +kernel

/-! The step and the flash (StepRunsQueueFront, FlashAndFusesKept, FlashWriters). -/

theorem wit_step :
    [ (match step { lab id with pending := [.wakePin, .autoIdle] }, exec .wakePin { lab id with pending := [.autoIdle] } with
      | .next a, .next b => a == b
      | _, _ => false)
    , (match step (lab id) with | .next t => t.d.clk.life == 40 | _ => false)
    , (match step (lab id) with | .next t => (lab id).nv.wf && t.nv.wf | _ => false)
    , !hostCommand .wakePin && !mayWriteFlash .wakePin && after .wakePin (lab id) fun t => t.nv == State.reset.nv ].all id = true := by decide +kernel

/-! Media (ProgramStatus, ReadLadder, RepairsEnd, SegmentsMove, EpochAndScrub). -/

/-- A staged value of two chunks. -/
def labStaged (serial : Option Nat) : Staged :=
  { recId := 65, sq := 1, ord := 40, op := 2, ks := 1, keyLen := 1, len := 8192, chunks := [(0, 0), (1, 2)], serial := serial, mode := 3 }

def stagedLab (serial : Option Nat) : State := labCtx (fun c => { c with op := 2 }) fun d => d.onKvx fun k => { k with staged := [labStaged serial] }

def labPack : Pack := { id := 0, recs := [65, 66], used := 100, since := 0 }

/-- That pack is open since 0 and the life clock shows `life`. -/
def packLab (life : Nat) (f : Kvx → Kvx) : State := lab fun d => (d.onKvx fun k => f { k with pack := some labPack }).onClk fun c => { c with life := life }

/-- A commit record not yet journalled. -/
def labLog : CommitRec :=
  { serial := 3, domain := 2, strict := true, conn := 0, sq := 1, ord := 0, keys := .none, effs := [], vals := [], lone := 1, admitted := true
    media := false, journaled := false, cqeDone := true }

theorem wit_program :
    [ after (.chunkProgramComplete 65 0 true 0) (stagedLab (some 3)) (fun t => t.d.kvx.staged.map (·.chunks) == [[(1, 2)]])
    , after (.chunkProgramComplete 65 1 true 0) (lab fun d => d.onKvx fun k => { k with staged := [{ labStaged (some 3) with chunks := [(1, 2)] }] })
        (fun t => t.d.kvx.staged.isEmpty)
    , after (.chunkProgramComplete 65 1 false 0) (stagedLab none)
        (fun t => t.d.events 0x101 == 1 && (t.d.ctx? 1 40).any fun c => c.fail.any fun r => r.status == 0x5002 && r.stage == 9)
    , after .packWindowExpiry (packLab 50000 id) (fun t => t.d.kvx.pack == none && t.d.kvx.packs == [labPack])
    , after .packWindowExpiry (packLab 49999 id) (fun t => t == packLab 49999 id)
    , after .packWindowExpiry (lab id) (fun t => t == lab id)
    , after .packWindowExpiry (packLab 50000 fun k => { k with staged := [{ labStaged none with recId := 66 }] })
        (fun t => t.d.kvx.packs.map (·.recs) == [[65]] && (t.d.kvx.pack.map (·.recs)) == some [66])
    , after (.packProgramComplete 0 true 0) (lab fun d => d.onKvx fun k => { k with packs := [labPack], staged := [labStaged (some 3)] })
        (fun t => t.d.kvx.packs.isEmpty && t.d.kvx.staged.isEmpty)
    , after .journalProgramTimer (lab fun d => d.onKvx fun k => { k with log := [labLog] }) (fun t => t.d.kvx.journal == [3])
    , after .journalProgramTimer (lab fun d => d.onKvx fun k => { k with log := [labLog], journal := [9] }) (fun t => t.d.kvx.journal == [9])
    , after .journalProgramComplete (lab fun d => d.onKvx fun k => { k with log := [labLog], journal := [3] })
        (fun t => t.d.kvx.log == [{ labLog with journaled := true }] && t.d.kvx.journal.isEmpty) ].all id = true := by decide +kernel

/-- A GET that has had its read point and reads chunk 0 at ladder step `step`. -/
def ladderLab (step : Nat) (l : List (Nat × BitVec 48)) (g : Drive → Drive) : State :=
  labCtx (fun c => { c with turned := true, key := some [65], chunks := [(0, step)], ladder := l }) g

def taggedLab (d : Drive) : Drive :=
  d.onKvx fun k => { k with store := { k.store with recs := [{ labRec 65 [1, 2, 3] with tagged := true }] } }

/-- The value that it reads is tagged. -/
def tagLab (step : Nat) (l : List (Nat × BitVec 48)) : State :=
  labCtx (fun c => { c with turned := true, key := some [65], chunks := [(0, step)], ladder := l, tagged := [0] }) taggedLab

theorem wit_ladder :
    [ after (.codewordRead 1 0 0 0 true false true) (ladderLab 1 [] id) (fun t => (t.d.ctx? 1 40).any fun c => c.chunks.isEmpty && !c.settled)
    , after (.codewordRead 1 0 0 0 false false true) (ladderLab 1 [] id) (fun t => (t.d.ctx? 1 40).any fun c => c.chunks == [(0, 2)] && c.ladder == [(0, 0)])
    , (lab fun d => d.onMed fun m => { m with chLost := some 0 }.onChan 0 fun c => { c with state := 2 }).d.med.unavailable 0 0
    , after (.codewordRead 1 0 0 0 true false true) (ladderLab 1 [] fun d => d.onMed fun m => { m with chLost := some 0 }.onChan 0 fun c => { c with state := 2 })
        (fun t => (t.d.ctx? 1 40).any fun c => c.chunks == [(0, 5)])
    , after (.codewordRead 1 0 0 0 true false false) (tagLab 1 [])
        (fun t => (t.d.ctx? 1 40).any (·.res.status == 0x8003) && t.d.cry.authF == 1 && t.d.events 0x1C1 == 1)
    , after (.ladderStepComplete 1 0 true { tries := 9, failed := 0, tagOk := true }) (ladderLab 4 [(0, 0)] id) (fun t => (t.d.ctx? 1 40).any (·.chunks.isEmpty) && (t.d.med.die 0).entry == some 1)
    , after (.ladderStepComplete 1 0 false { tries := 9, failed := 0, tagOk := true }) (ladderLab 4 [(0, 0)] id) (fun t => (t.d.ctx? 1 40).any fun c => c.chunks == [(0, 5)] && !c.settled)
    , after (.ladderStepComplete 1 0 false { tries := 9, failed := 4, tagOk := true }) (ladderLab 5 [(0, 0)] id) (fun t => (t.d.ctx? 1 40).any (·.res.status == 0x5001))
    , after (.ladderStepComplete 1 0 false { tries := 9, failed := 0, tagOk := true }) (ladderLab 5 [(0, 0)] id) (fun t => (t.d.ctx? 1 40).any (·.chunks.isEmpty))
    , (lab id).d.med.failedMembers false 0 4 == [0, 2] && (lab id).d.med.parityMembers false 0 == [0]
    , after (.ladderStepComplete 1 0 true { tries := 9, failed := 0, tagOk := false }) (tagLab 2 [(0, 0)]) (fun t => (t.d.ctx? 1 40).any (·.res.status == 0x8003))
    , after (.ladderStepComplete 1 0 true { tries := 9, failed := 0, tagOk := true }) (ladderLab 2 [(0, 0)] fun d => d.onUpd fun u => { u with fenced := [7] })
        (fun t => (t.d.ctx? 1 40).any (·.chunks == [(0, 2)]))
    , after (.codewordRead 1 0 0 (0x01#48 <<< 40) true false true) (ladderLab 1 [] id) (fun t => (t.d.ctx? 1 40).any (fun c => c.chunks == [(0, 0)] && !c.settled) && t.d.idx.flashRd == 1)
    , after (.codewordRead 1 0 0 (0x01#48 <<< 40) true false true) (ladderLab 0 [] id) (fun t => (t.d.ctx? 1 40).any (fun c => c.settled && c.res.status == 0x9001) && t.d.events 0x02A == 1)
    , !locNames (15#48 <<< 26) && after (.codewordRead 1 0 0 (15#48 <<< 26) true false true) (ladderLab 1 [] id) (fun t => t == ladderLab 1 [] id) ].all id = true := by
  decide +kernel

theorem wit_repairs :
    [ after (.spareRebuildEnd 31) (lab fun d => d.onMed fun m => m.onDie 511 fun x => { x with state := 2, pos := 4 })
        (fun t => (t.d.med.die 511).state == 0 && (t.d.med.die 511).pos == 4 && t.d.events (0x100 + 127) == 1)
    , after (.channelRetrainComplete 31 ⟨true, 0⟩) (lab fun d => d.onMed fun m => m.onChan 31 fun x => { x with state := 1, fails := 2 })
        (fun t => (t.d.med.chan 31).fails == 0 && (t.d.med.chan 31).state == 0)
    , after (.channelRetrainComplete 31 ⟨false, 0⟩) (lab fun d => d.onMed fun m => m.onChan 31 fun x => { x with state := 1, fails := 2 })
        (fun t => t.d.med.chLost == some 31 && t.d.med.capacity == 93 * 2 ^ 40 && t.d.events 0x020 == 1)
    , after (.rebuildEnd 1) (lab fun d => d.onIdx fun x => { x with rebuild := [1, 2], lost := [(1, 0, 0)] })
        (fun t => t.d.idx.rebuild == [2] && t.d.idx.lost.isEmpty && t.d.events 0x181 == 1) ].all id = true := by decide +kernel

/-- The laboratory with segment 5, where its record is. -/
def segLab (st : SegState) (f : Segment → Segment) : State :=
  lab fun d => d.onMed fun m => { m with segs := [f { id := 5, used := 64, frame := 7, cell := .buffer, lacks := none, owner := none, state := st }], marks := [5] }

/-- A GET still reads a codeword from the frame of segment 5. -/
def readerLab (st : SegState) : State :=
  { segLab st id with d := (segLab st id).d.onKvx fun k => { k with ctxs := [{ onKs1 with turned := true, chunks := [(0, 1)], frames := [7] }] } }

/-- State and target of segment 5. -/
def segOf (t : State) : Option (SegState × Option Nat) := (t.d.med.seg? 5).map fun x => (x.state, x.into)

theorem wit_segments :
    [ after (.fold 5 6) (segLab .sealed id) (fun t => segOf t == some (.collecting, some 6) && t.d.med.marks == [5])
    , after (.segmentRefresh 5 6) (segLab .sealed fun x => { x with owner := some 1 }) (fun t => segOf t == some (.collecting, none))
    , after (.gcCopyProgrammed 5 6 true 0) (segLab .collecting fun x => { x with into := some 9 })
        (fun t => segOf t == some (.copied, some 6) && t.d.med.gcWrote == t.d.kvx.store.liveIn 5)
    , after (.gcMapCommit 5) (segLab .copied fun x => { x with into := some 6 })
        (fun t => t.d.kvx.turnSer == 8 && t.d.kvx.log.map (·.domain) == [0])
    , after (.gcMapCommit 5) (segLab .copied id) (fun t => t.d.kvx.store.recs.map (·.seg) == [5] && (t.d.med.seg? 5).map (·.old) == some (some { frame := 7, cell := .buffer, lacks := none, swaps := [] }))
    , after (.gcReclaimRecord 5) (segLab .mapped id) (fun t => segOf t == some (.reclaiming, none))
    , after (.blockEraseComplete 5 true 0) (segLab .reclaiming id) (fun t => segOf t == none)
    , after (.blockEraseComplete 5 true 0) (segLab .reclaiming fun x => { x with old := some { frame := 3, cell := .buffer, lacks := none, swaps := [] } })
        (fun t => segOf t == some (.sealed, none) && (frameBlocks 3 [] none).length == 128 && (frameBlocks 3 [] none).all fun k => t.d.med.block k == { erases := 1, wear := Cell.buffer.wear, bad := false })
    , after (.blockEraseComplete 5 true 0) (readerLab .reclaiming) (fun t => t == readerLab .reclaiming)
    , after (.fold 5 6) { segLab .sealed id with d := { (segLab .sealed id).d with pwr := { (segLab .sealed id).d.pwr with cur := 5 }, clk := { (segLab .sealed id).d.clk with life := 60000000000 } } }
        (fun t => segOf t == some (.collecting, some 6))
    , after (.fold 5 6) { segLab .sealed id with d := { (segLab .sealed id).d with pwr := { (segLab .sealed id).d.pwr with cur := 5 } } } (fun t => segOf t == some (.sealed, none))
    , after (.fold 5 6) (segLab .mapped id) (fun t => segOf t == some (.mapped, none)) ].all id = true := by decide +kernel

/-- The same segment, not marked. -/
def plainSeg (f : Med → Med) : State := let s := segLab .sealed id; { s with d := s.d.onMed fun m => f { m with marks := [] } }

/-- Two channels of the media are lost: no frame can be programmed. -/
def lostChans : Med := (labDrive.med.onChan 0 fun c => { c with state := 2 }).onChan 1 fun c => { c with state := 2 }

/-- Without a frame that can be programmed, and with no frame worn, no segment opens. -/
theorem newFrames_none (m : Med) (hb : m.wornFrames = []) (hf : ∀ (narrow : Bool) (f : Nat), m.frameOk narrow f = false) :
    m.newFrames false [{ id := 5, frame := 7, lacks := none, swaps := [] }] = none := by
  have hl : ∀ narrow : Bool, m.leastWorn narrow = none := by
    intro narrow
    simp only [Med.leastWorn, hb, hf]
    cases lowestFree dataFrames (m.busyFrames ++ []) <;> simp
  simp [Med.newFrames, Med.nextFrame, hl]

theorem wit_no_frames : lostChans.newFrames false [{ id := 5, frame := 7, lacks := none, swaps := [] }] = none := by
  have h0 : (lostChans.chan 0).state = 2 := by decide +kernel
  have h1 : (lostChans.chan 1).state = 2 := by decide +kernel
  have hb : lostChans.wornFrames = [] := by decide +kernel
  have hr : List.range 32 = 0 :: 1 :: (List.range 30).map (· + 2) := by decide
  have hf : ∀ (narrow : Bool) (f : Nat), lostChans.frameOk narrow f = false := by
    intro narrow f
    have : 2 ≤ (lostChans.lackers f).length := by
      simp only [Med.lackers, hr, List.filter_cons, h0, h1]; simp
    have h : decide ((lostChans.lackers f).length ≤ 1) = false := decide_eq_false (by omega)
    simp [Med.frameOk, h]
  exact newFrames_none lostChans hb hf

theorem wit_r3_segments :
    [ after (.segmentRefresh 5 6) (segLab .sealed id) (fun t => segOf t == some (.collecting, some 6) && t.d.med.marks == [5])
    , after (.segmentRefresh 5 6) (plainSeg fun m => { m with scrub := true }) (fun t => segOf t == some (.collecting, some 6) && t.d.med.marks == [5] && t.d.med.scrubSeg == 5)
    , after (.segmentRefresh 5 6) (plainSeg id) (fun t => t == plainSeg id)
    , after (.segmentRefresh 5 6) (plainSeg fun m => { m with due := [5] }) (fun t => segOf t == some (.collecting, some 6))
    , after (.gcCopyProgrammed 5 6 true 0) (let s := segLab .collecting id; { s with d := s.d.onMed (Med.onChan 31 fun c => { c with state := 1 }) })
        (fun t => segOf t == some (.collecting, none) && t.d.med.gcWrote == 0)
    , after (.rebuildEnd 2) (lab fun d => d.onIdx fun x => { x with rebuild := [1, 2] }) (fun t => t.d.idx.rebuild == [1, 2])
    , after (.rebuildEnd 1) (lab fun d => d.onIdx fun x => { x with rebuild := [1, 2], rbEnd := 1 }) (fun t => t.d.idx.rebuild == [1, 2])
    , after (.scrubPassEnd []) (segLab .sealed id) (fun t => t == segLab .sealed id)
    , after (.scrubPassEnd []) (let s := segLab .sealed id; { s with d := s.d.onMed fun m => { m with scrub := true } }) (fun t => t.d.med.scrub)
    , after (.chunkProgramComplete 65 0 true 0) (let s := stagedLab (some 3); { s with d := s.d.onMed (Med.onChan 0 fun c => { c with state := 1 }) })
        (fun t => t.d.kvx.staged == [labStaged (some 3)]) ].all id = true := by decide +kernel

theorem wit_epoch :
    [ after .schedulingEpoch (labPwr fun p => { p with change := some (changeTo 0xB) }) (fun t => t.d.pwr.cur == 0xB && t.d.pwr.roCause == 1)
    , after .schedulingEpoch (lab fun d => (d.onMed fun m => { m with gcWrote := 9 }).onClk fun c => { c with life := 3600000000000 })
        (fun t => t.d.med.gcWrote == 0 && t.d.med.hourAt == 3600000000000)
    , after .scrubPassStart (lab fun d => d.onClk fun c => { c with installed := 86400 * 30 }) (fun t => t.d.scrubState == 1)
    , regTest .smbus 0x914C (.scrubNow .smbus) (lab id) (fun d => !d.med.scrub) (fun t => t.d.med.scrub)
    , after (.scrubPassEnd []) (lab fun d => d.onMed fun m => { m with scrub := true, refPass := 3 }) (fun t => !t.d.med.scrub && t.d.med.refLast == 3 && t.d.events 0x028 == 1)
    , after .scrubDeferral (lab fun d => ((d.onPwr fun p => { parked p with why := 1 }).onMed fun m => { m with askAt := some 0 }).onClk fun c => { c with installed := 86400 }) (fun t => t.d.med.defer == 1 && t.d.events 0x027 == 1)
    , after .scrubDeferral (lab fun d => ((d.onPwr fun p => { parked p with why := 1 }).onMed fun m => { m with askAt := some 0 }).onClk fun c => { c with installed := 86399 }) (fun t => t.d.med.defer == 0)
    , after .scrubDeferral (lab id) (fun t => t.d.med.defer == 0) ].all id = true := by decide +kernel

/-! Connections and transport (ConnectionComesUp, ConnectionEnds, Doorbells, Retransmission, CongestionAndPaths). -/

def labReq : CmReq :=
  { port := .a, serviceId := 0x1061D2F, rc := true, pmtu := 4096, resources := 16, index := 5, qpn := 9, psn := 100, ip := 0xFFFF0A000001
    mac := 0x020000000001, ackTo := 14, retry := 7, rnrRetry := 7, rnrTimer := 12, alt := none }

/-- Connection 0 changed. -/
def labConn0 (f : Conn → Conn) : State := lab fun d => d.onConn 0 f

/-- Connection 0 awaits HELLO, without queues. -/
def awaiting : State :=
  lab fun d => (d.onConn 0 fun x => { x with state := .awaitingHello, challenge := fill 32 7 }).onHq fun h => { h with sqs := [], cqs := [] }

/-- HELLO bytes 0x28 to 0x7F (R95): SQ and CQ of depth 16 at 0x10000 and 0x20000. -/
def helloRest : Bytes :=
  leBytes 8 0x10000 ++ leBytes 4 1 ++ leBytes 2 16 ++ leBytes 2 16 ++ leBytes 8 0x20000 ++ leBytes 4 1 ++ fill 60 0

/-- A HELLO of tenant 1 with a response. -/
def helloWith (resp : Bytes) : Bytes := [2, 1, 128, 0, 1, 0, 0, 0] ++ resp ++ helloRest

theorem helloShape_of (r : Bytes) (h : r.length = 32) : helloShape (helloWith r) = true := by
  have hr : helloRest.length = 88 := by decide +kernel
  have a : ∀ o n, 40 ≤ o → slice (helloWith r) o n = slice helloRest (o - 40) n := by
    intro o n ho; rw [helloWith, slice_tail _ _ _ _ (by simp [h]; omega)]; simp [h]
  have b : ∀ o n, o + n ≤ 8 → slice (helloWith r) o n = slice [2, 1, 128, 0, 1, 0, 0, 0] o n := by
    intro o n ho; rw [helloWith, List.append_assoc, slice_head _ _ _ _ (by simp; omega)]
  have l : (helloWith r).length = 128 := by simp [helloWith, h, hr]
  simp only [helloShape, byteAt, le, l, a 0x44 _ (by omega), a 0x34 _ (by omega), a 0x36 _ (by omega), a 0x28 _ (by omega),
    a 0x38 _ (by omega), b 0 1 (by omega), b 1 1 (by omega), b 2 2 (by omega)]
  decide +kernel
theorem hello_fields (r : Bytes) (h : r.length = 32) : slice (helloWith r) 8 32 = r ∧
    slice (helloWith r) 4 4 = [1, 0, 0, 0] ∧ slice (helloWith r) 0x28 0x58 = helloRest := by
  have hr : helloRest.length = 88 := by decide +kernel
  refine ⟨?_, ?_, ?_⟩
  · rw [helloWith, List.append_assoc, slice_tail _ _ _ _ (by simp), slice_head _ _ _ _ (by simp [h])]
    simp [slice, h, fill, List.take_of_length_le]
  · rw [helloWith, List.append_assoc, slice_head _ _ _ _ (by simp)]; decide +kernel
  · rw [helloWith, slice_tail _ _ _ _ (by simp [h])]; simp [slice, h, hr, fill, List.take_of_length_le]

/-- A path with a selector on connection `k`. -/
def selConn (k : Nat) (d : Drive) : Drive := d.onPath .smbus fun x => { x with sel := [(0x5000, k)] }

theorem wit_connect :
    [ (lab id).d.reqOk labReq && after (.cmReq labReq) (lab id) fun t => (t.d.xpt.conn 5).pending && (t.d.xpt.conn 5).rPsn == 100
    , !(lab id).d.reqOk { labReq with rc := false } && after (.cmReq { labReq with rc := false }) (lab id) fun t => t == { lab id with d := (lab id).d.onXpt fun x => { x with cmOut := x.cmOut ++ [.rej .transport] } }
    , after (.cmRtu 0) (labConn0 fun x => { x with state := .free, pending := true }) (fun t => (t.d.xpt.conn 0).state == .awaitingHello)
    , after (.cmRtu 0) (lab id) (fun t => t == lab id)
    , regTest .smbus 0x5038 (.connHold .smbus) (lab (selConn 7)) (fun d => d.sel .smbus 0x5000 == 7) (fun t => (t.d.xpt.conn 7).state == .held)
    , regTest .smbus 0x5038 (.connHold .smbus) (lab (selConn 0)) (fun d => d.sel .smbus 0x5000 == 0) (fun t => (t.d.xpt.conn 0).cmdErr)
    , regTest .smbus 0x5038 (.connProvision .smbus) (labConn0 fun x => { x with state := .held, path := { x.path with rmac := 5 } })
        (fun d => (d.xpt.conn 0).path.pmtu == 5) (fun t => (t.d.xpt.conn 0).state == .awaitingHello && (t.d.xpt.conn 0).preprov)
    , regTest .smbus 0x5500 (.altPathArm .smbus) (labConn0 fun x => { x with state := .held }) (fun _ => true) (fun t => (t.d.xpt.net 0).altArm)
    ].all id = true := by decide +kernel

/-- A state 100 s later. -/
def aged (s : State) : State := { s with d := s.d.onClk fun c => { c with life := c.life + 100000000000, installed := c.installed + 100 } }

/-- A right HELLO of tenant 1 for the laboratory's connection. -/
def rightHello : Bytes := helloWith (helloResponse [1] (awaiting.d.xpt.conn 0) (helloWith (fill 32 0)))

theorem wit_hello : helloShape rightHello = true ∧ slice rightHello 8 32 = helloResponse [1] (awaiting.d.xpt.conn 0) rightHello ∧
    awaiting.d.hq.freeSq = some 0 ∧ awaiting.d.hq.freeCq = some 0 ∧ (awaiting.d.kvx.store.tenant? 1).map (·.key) = some [1] := by
  have l : (helloResponse [1] (awaiting.d.xpt.conn 0) (helloWith (fill 32 0))).length = 32 := sha256_length _
  have b := hello_fields _ l
  refine ⟨helloShape_of _ l, ?_, by decide +kernel, by decide +kernel, by decide +kernel⟩
  have c : ∀ r : Bytes, r.length = 32 → helloResponse [1] (awaiting.d.xpt.conn 0) (helloWith r) =
      helloResponse [1] (awaiting.d.xpt.conn 0) (helloWith (fill 32 0)) := by
    intro r hr; simp only [helloResponse, (hello_fields r hr).2.1, (hello_fields r hr).2.2, (hello_fields (fill 32 0) rfl).2.1,
      (hello_fields (fill 32 0) rfl).2.2]
  rw [rightHello, b.1, c _ l]

theorem wit_disconnect :
    [ after (.cmDreq 0) (lab id) (fun t => (t.d.xpt.conn 0).state == .closing && t.d.events 0x081 == 1)
    , after (.invalidRequest 0 10 false) (lab id) (fun t => t.d.xpt.badReq == 1 && t.d.events 0x083 == 1)
    , after (.helloTimeout 0) (aged awaiting) (fun t => (t.d.xpt.conn 0).authF == 1 && t.d.events 0x080 == 1)
    , regTest .smbus 0x5038 (.connClose .smbus) (lab id) (fun _ => true) (fun t => (t.d.xpt.conn 0).state == .closing)
    , regTest .smbus 0x5038 (.connRelease .smbus) (labConn0 fun x => { x with state := .held }) (fun _ => true) (fun t => (t.d.xpt.conn 0).state == .free)
    , after (.sendAfterHello 0) (lab id) (fun t => (t.d.xpt.conn 0).sendX == 1 && t.d.events 0x084 == 1)
    , after (.connectionFree 0) (labConn0 fun x => { x with state := .closing }) (fun t => (t.d.xpt.conn 0).state == .free && t.d.hq.sqs.isEmpty)
    , after (.connectionFree 0) (labCtx id fun d => d.onConn 0 fun x => { x with state := .closing }) (fun t => (t.d.xpt.conn 0).state == .closing)
    ].all id = true := by decide +kernel

/-- A doorbell write of index `i` with sequence number `n`. -/
def bell (i n : Nat) : Bytes := leBytes 2 i ++ leBytes 2 0 ++ leBytes 4 n

theorem wit_doorbells :
    [ after (.sqDoorbell 0 8 (bell 15 2)) (lab id) (fun t => (t.d.sq? 1).any fun x => x.tail == 15 && x.dbSeq == 2)
    , after (.sqDoorbell 0 8 (bell 15 1)) (lab id) (fun t => (t.d.sq? 1).any (·.stale == 1))
    , after (.sqDoorbell 0 8 (bell 16 2)) (lab id) (fun t => (t.d.sq? 1).any (·.bad == 1) && t.d.events 0x092 == 1)
    , after (.sqDoorbell 0 8 (bell 0 2)) (lab id) (fun t => (t.d.sq? 1).any (·.bad == 1))
    , after (.cqDoorbell 0 0x20000 (bell 2 1)) (lab fun d => d.onCq 0 fun q => { q with tail := 2 }) (fun t => (t.d.cq? 0).any (·.head == 2))
    , after (.sqDoorbell 0 8 (bell 1 2)) (labConn0 fun x => { x with state := .closing }) (fun t => (t.d.xpt.conn 0).dbX == 1)
    , after (.sqDoorbell 0 80 (bell 1 2)) (lab id) (fun t => (t.d.xpt.conn 0).dbX == 1)
    , after (.cqDoorbell 0 0x20000 (bell 1 0)) (lab id) (fun t => (t.d.cq? 0).any (·.stale == 1))
    , after (.cqDoorbell 0 0x20000 (bell 1 1)) (lab id) (fun t => (t.d.cq? 0).any (·.bad == 1) && t.d.events 0x092 == 1)
    , after (.cqDoorbell 0 0x20008 (bell 1 1)) (lab id) (fun t => (t.d.xpt.conn 0).dbX == 1)
    , after (.sqDoorbell 0 8 (bell 1 2)) awaiting (fun t => (t.d.xpt.conn 0).dbX == 1 && (t.d.xpt.conn 0).authF == 1 && (t.d.xpt.conn 0).state == .closing)
    , after (.cqDoorbell 0 0x20000 (bell 1 1)) awaiting (fun t => (t.d.xpt.conn 0).dbX == 1 && (t.d.xpt.conn 0).authF == 1 && (t.d.xpt.conn 0).state == .closing)
    , after (.sqDoorbell 9 8 (bell 1 2)) (lab id) (fun t => t == lab id)
    , after (.cqDoorbell 9 0x20000 (bell 1 2)) (lab id) (fun t => t == lab id)
    , after (.invalidRequest 0 10 false) awaiting (fun t => (t.d.xpt.conn 0).authF == 1 && t.d.events 0x083 == 1) ].all id = true := by decide +kernel

/-- Connection 0 with a request at PSN 3, one retry and its alternate path in state `a`. -/
def sent (w : ReqFor) (a : AltState) : State :=
  lab fun d => (d.onConn 0 fun x => { x with unacked := [writeReq w], path := { x.path with retry := 1, rnrRetry := 1 } }).onXpt
    (Xpt.onNet 0 fun n => { n with alt := a, altPortB := true, altIp := 9, altMac := 8, rate := 1000 })

/-- It has been sent again once. -/
def again (s : State) : State := { s with d := s.d.onConn 0 fun x => { x with retries := 1 } }

theorem wit_retransmission :
    [ after (.roceAck 0 3) (sent (.value 1 40) .none) (fun t => (t.d.xpt.conn 0).unacked.isEmpty)
    , after (.roceAck 0 2) (sent (.value 1 40) .none) (fun t => (t.d.xpt.conn 0).unacked.length == 1)
    , after (.nakSequence 0 3) (sent (.value 1 40) .none) (fun t => (t.d.xpt.conn 0).retries == 1 && t.d.xpt.reTx == 1 && t.d.xpt.nakRx == 1)
    , after (.rnrNak 0 3) (sent (.value 1 40) .none) (fun t => (t.d.xpt.conn 0).rnrs == 1 && t.d.xpt.reTx == 1)
    , after (.ackTimeout 0) (sent (.value 1 40) .none) (fun t => (t.d.xpt.conn 0).retries == 1 && t.d.xpt.reTx == 1)
    , after (.ackTimeout 0) (again (sent (.value 1 40) .armed)) (fun t => (t.d.xpt.conn 0).path.portB && t.d.events 0x082 == 1)
    , after (.ackTimeout 0) (again (sent (.value 1 40) .none)) (fun t => (t.d.xpt.conn 0).state == .closing)
    , after (.rdmaWriteRefused 0 3) (sent (.cqe 0 none) .none) (fun t => (t.d.cq? 0).any (·.faulted) && t.d.events 0x091 == 1)
    , after (.rdmaWriteRefused 0 3) (labCtx id (reqOn (writeReq (.value 1 40)))) (fun t => (t.d.ctx? 1 40).any (·.res.status == 0x6001))
    ].all id = true := by decide +kernel

/-- Port B knows the next hop of address 9. -/
def hopLab : State := lab fun d => d.onPort .b fun x => { x with neighs := [{ ip := 9, mac := some 8, tries := 0 }] }

/-- Port A's transmitter is held. -/
def heldLab : State := lab fun d => d.onPort .a fun x => { x with flow := { x.flow with held := some 5 } }

/-- The one packet that has gone to connection 0's port since, and its further header. -/
def sentOut (op psn : Nat) (ext : Bytes) (t : State) : Bool := t.d.xpt.tx.map (fun x => (x.2.1, x.2.2.op, x.2.2.psn, x.2.2.ext)) == [(0, op, psn, ext)]

theorem wit_r3_transport :
    [ after (.duplicateRequest 0 3 true) (labConn0 fun x => { x with rPsn := 5, msn := 2 }) (sentOut 0x11 5 [0x60, 0, 0, 2])
    , after (.duplicateRequest 0 3 false) (labConn0 fun x => { x with rPsn := 5, msn := 2 }) (sentOut 0x11 4 [0x1F, 0, 0, 2])
    , after (.ceMarkedPacket 0) (lab id) (fun t => t.d.xpt.cnpTx == 1 && t.d.xpt.tx.map (·.2.2.op) == [0x81])
    , after (.ceMarkedPacket 0) heldLab (fun t => t.d.xpt.cnpTx == 0 && t.d.xpt.tx.isEmpty && (t.d.xpt.conn 0).txq.map (·.op) == [0x81])
    , after (.cmLap 0 { port := .a, ip := 9, mac := 7 }) (lab id) (fun t => t == { lab id with d := (lab id).d.onXpt fun x => { x with cmOut := [.apr 0] } })
    , after .nextHopRefresh (lab fun d => d.onClk fun c => { c with life := 59999999999 }) (fun t => t.d.xpt.hopAt == 0)
    , after (.cmReq labReq) heldLab (fun t => t.d.xpt.cmOut.isEmpty && t.d.xpt.cmWait.length == 1)
    , after (.cmReq { labReq with rc := false }) heldLab (fun t => t.d.xpt.cmOut.isEmpty && t.d.xpt.cmWait == [(false, .rej .transport)])
    , after (.pauseExpiry .a) (aged (let s := heldLab; { s with d := s.d.onXpt fun x => { x with cmWait := [(false, .apr 0)] } }))
        (fun t => t.d.xpt.cmOut == [.apr 0] && t.d.xpt.cmWait.isEmpty)
    , after (.roceAck 0 3) (labConn0 fun x => { x with unacked := [{ writeReq .notify with psn := 3 }, { writeReq .notify with psn := 4 }] })
        (fun t => (t.d.xpt.conn 0).unacked.map (·.psn) == [4]) ].all id = true := by decide +kernel

theorem wit_congestion :
    [ after (.ceMarkedPacket 0) (lab id) (fun t => t.d.xpt.cnpTx == 1 && (t.d.xpt.net 0).lastCnp == some 0)
    , after (.ceMarkedPacket 0) (lab fun d => (d.onXpt (Xpt.onNet 0 fun n => { n with lastCnp := some 0 })).onClk fun c => { c with life := 49999 })
        (fun t => t.d.xpt.cnpTx == 0)
    , after (.cnpReceive 0) (sent .notify .none) (fun t => t.d.xpt.cnpRx == 1 && (t.d.xpt.net 0).rate == 875)
    , after (.rateRecoveryTimer 0) (lab fun d => ((d.onXpt (Xpt.onNet 0 fun n => { n with rate := 875 })).onPort .a fun x =>
        { x with link := { x.link with up := true, res := 1 } })) (fun t => (t.d.xpt.net 0).rate == 925)
    , after (.alternatePathPacket 0) (sent .notify .armed) (fun t => (t.d.xpt.net 0).alt == .migrated)
    , after (.cmLap 0 { port := .b, ip := 9, mac := 7 }) hopLab (fun t => (t.d.xpt.net 0).alt == .armed && (t.d.xpt.net 0).altMac == 8)
    , after .nextHopRefresh (aged (let s := sent .notify .armed; { s with d := s.d.onXpt (Xpt.onNet 0 fun n => { n with altGiven := 7 }) }))
        (fun t => (t.d.xpt.net 0).altMac == 7) ].all id = true := by decide +kernel

/-! Ports and the jack (LinksAndJack, NeighborsAnswered, FlowControl, FramesAndFilters). -/

/-- Port A changed, its link up at 100 Gb/s. -/
def portLab (f : PortSt → PortSt) : State := lab fun d => d.onPort .a fun x => f { x with link := { x.link with up := true, res := 5 } }

/-- A parked drive with an armed jack and code 7. -/
def jackLab (f : Jack → Jack) : State := lab fun d => (d.onPwr fun p => { p with cur := 8 }).onJack fun j => f { j with arm := true, code := 7, link := true }

/-- A wake frame without its FCS and padding for code `c` (R447). -/
def wakeBytes (c : Nat) : Bytes :=
  padTo 64 (beBytes 6 Config.macA ++ beBytes 6 1 ++ beBytes 2 0x88B5 ++ [0x10, 1, 0, 0] ++ leBytes 8 Config.identity ++ leBytes 8 c)

theorem wit_links :
    [ after (.linkUp .a 5 true) (lab fun d => d.onPort .a fun x => { x with ip4 := 0x0A000001 })
        (fun t => t.d.portA.link.up && t.d.portA.link.res == 5 && t.d.portA.out.length == 1 && t.d.events 0x040 == 1)
    , after (.linkDown .a) (portLab id) (fun t => !t.d.portA.link.up && t.d.portA.link.downs == 1)
    , after (.linkDown .a) ({ portLab id with d := (portLab id).d.onXpt (Xpt.onNet 0 fun n => { n with alt := .armed, altPortB := true }) })
        (fun t => (t.d.xpt.conn 0).path.portB && t.d.events 0x082 == 1)
    , regTest .smbus 0x3008 (.linkRestart .smbus .a 1) (portLab id) (·.portA.link.up) (fun t => !t.d.portA.link.up && t.d.portA.link.train)
    , after (.netFecdeg .b true) (lab id) (fun t => t.d.events 0x063 == 1)
    , after (.wakeFrame (fill 64 0) true) (lab id) (fun t => t == lab id)
    , after .jackLockEnd (aged (jackLab fun j => { j with lock := true, badRun := [1] })) (fun t => !t.d.jack.lock && t.d.jack.badRun.isEmpty)
    , after (.jackLinkRetry true) (jackLab id) (fun t => t.d.jack.link)
    , regTest .smbus 0x3090 (.wakecodeWrite .smbus true 2) (lab fun d => d.onJack fun j => { j with code := 7 }) (fun _ => true)
        (fun t => t.d.jack.code == 2 * 2 ^ 32 + 7) ].all id = true := by decide +kernel

/-- The drive's MAC and identity are open values: the wake frame is built from them, and meets every check of R447. -/
theorem wit_wake_frame : (wakeBytes 7).length = 64 ∧ be (wakeBytes 7) 0 6 = Config.macA ∧ etherType (wakeBytes 7) = 0x88B5 ∧
    byteAt (network (wakeBytes 7)) 0 = 0x10 ∧ byteAt (network (wakeBytes 7)) 1 = 1 ∧ le (network (wakeBytes 7)) 2 2 = 0 ∧
    le (network (wakeBytes 7)) 4 8 = Config.identity ∧ le (network (wakeBytes 7)) 12 8 = 7 ∧ (jackLab id).d.jack.armed = true ∧
    (jackLab id).d.jack.link = true := by
  have h1 : Config.macA < 2 ^ 48 := by unfold Config.macA; omega
  have h2 : Config.identity < 2 ^ 64 := by unfold Config.identity; omega
  have ht : typeAt (wakeBytes 7) = 12 := by
    simp [typeAt, wakeBytes, isTagged, be, beNat, slice, padTo, beBytes, leBytes, leNat, fill]
  refine ⟨?_, ?_, ?_, ?_, ?_, ?_, ?_, ?_, by decide +kernel, by decide +kernel⟩ <;> (try simp only [etherType, network, ht]) <;> unfold wakeBytes <;>
    generalize Config.macA = m at h1 ⊢ <;> generalize Config.identity = i at h2 ⊢ <;>
    simp [byteAt, be, le, beNat, slice, padTo, beBytes, leBytes, leNat, fill] <;> omega

theorem wit_neighbors :
    [ after (.arpRequest .a 0x0A000002 0x020000000002 0x0A000001) (portLab fun x => { x with ip4 := 0x0A000001 })
        (fun t => t.d.portA.out.length == 1 && t.d.portA.neighs.length == 1)
    , after (.neighborSolicitation .a 9 0x020000000002 5) (portLab fun x => { x with ip6 := 5 }) (fun t => t.d.portA.out.length == 1)
    , after (.icmpEcho .a 0xFFFF0A000002 0x020000000002 [1]) (portLab fun x => { x with ip4 := 0x0A000001, echo := (0, 999) })
        (fun t => t.d.portA.out.length == 1 && t.d.portA.echo == (0, 1000))
    , after (.icmpEcho .a 0xFFFF0A000002 0x020000000002 [1]) (portLab fun x => { x with ip4 := 0x0A000001, echo := (0, 1000) })
        (fun t => t.d.portA.out.isEmpty)
    , after (.addressResolutionRetry .a 0xFFFF0A000002) (aged (portLab fun x => { x with neighs := [{ ip := 0xFFFF0A000002, mac := none, tries := 1 }] }))
        (fun t => t.d.portA.out.length == 1)
    , after (.addressResolutionRetry .a 0xFFFF0A000002) (aged (portLab fun x => { x with neighs := [{ ip := 0xFFFF0A000002, mac := none, tries := 0 }] }))
        (fun t => t.d.portA.neighs.isEmpty) ].all id = true := by decide +kernel

/-- Port A with its flow control changed. -/
def flowLab (f : Flow → Flow) : State := portLab fun x => { x with flow := f { x.flow with fc := 1 } }

/-- A frame of 1,500 bytes waits in its receive buffer. -/
def rxLab (f : Flow → Flow) : State :=
  let s := flowLab f; { s with d := s.d.onPort .a fun x => { x with rxq := [(1, fill 1500 0, true)] } }

theorem wit_flow :
    [ after (.pauseReceive .a (.pause 5)) (flowLab id) (fun t => t.d.portA.flow.held == some 5)
    , after (.pauseReceive .a (.pfc 8 5)) (flowLab fun x => { x with fc := 2 }) (fun t => t.d.portA.flow.held == some 5)
    , after (.pauseReceive .a (.pfc 4 5)) (flowLab fun x => { x with fc := 2 }) (fun t => t.d.portA.flow.held == none)
    , after (.pauseExpiry .a) (aged (flowLab fun x => { x with held := some 5 })) (fun t => t.d.portA.flow.held == none)
    , after (.pauseExpiry .a) (flowLab fun x => { x with held := some 5 }) (fun t => t.d.portA.flow.held == some 5)
    , after (.pauseRefreshTimer .a) (aged (rxLab fun x => { x with sent := true, low := 0 })) (fun t => t.d.portA.out.length == 1)
    , after (.pauseRefreshTimer .a) (flowLab id) (fun t => t.d.portA.out.isEmpty)
    , after (.pauseRelease .a 1) (rxLab fun x => { x with sent := true, low := 2 }) (fun t => t.d.portA.fill ≤ 1024 && !t.d.portA.flow.sent && t.d.portA.out.length == 1)
    , after (.pauseRelease .a 2) (rxLab fun x => { x with sent := true, low := 1 }) (fun t => t.d.portA.fill == 1500 && t.d.portA.flow.sent)
    , after (.netPausestorm .a) (aged (flowLab fun x => { x with held := some 5 })) (fun t => t.d.portA.flow.storm && t.d.events 0x042 == 1)
    , after (.pauseRelease .a 9) (flowLab fun x => { x with sent := true, low := 2 }) (fun t => !t.d.portA.flow.sent && t.d.portA.out.length == 1)
    , after (.netPausestorm .a) (flowLab id) (fun t => !t.d.portA.flow.storm)
    , after (.pausestormEnd .a) (aged (flowLab fun x => { x with storm := true })) (fun t => !t.d.portA.flow.storm)
    , after (.txUnderrun .a) (flowLab fun x => { x with ctCur := 7 }) (fun t => t.d.portA.flow.ctCur == 7 && t.d.events 0x044 == 1)
    , after (.cutThroughDecay .a) (aged (flowLab fun x => { x with ctCur := 2, ctMin := 1 })) (fun t => t.d.portA.flow.ctCur == 1) ].all id = true := by
  decide +kernel

/-- A frame of `n` bytes of EtherType 0x88B5. -/
def rawFrame (n : Nat) : Bytes := padTo n (beBytes 6 9 ++ beBytes 6 1 ++ beBytes 2 0x88B5)

/-- Port A with a short limit and filter 0 that hands EtherType 0x88B5 to class `c`. -/
def filterLab (c : Nat) (q : List (Nat × Bytes × Bool)) : State :=
  portLab fun x => { x with maxFrm := 100, filters := [(0, { etype := 0x88B5, etypeEn := true, valid := true, cls := c })], rxq := q }

def dropCount (i : Nat) (t : State) : Nat := lookupD t.d.portA.stats i 0

theorem wit_frames :
    [ after (.frameReceive .a (rawFrame 64) true true) (lab id) (fun t => t == lab id)
    , after (.frameReceive .a (rawFrame 2149) true true) (filterLab 1 []) (fun t => dropCount 0x11 t == 1)
    , after (.frameReceive .a (rawFrame 101) true true) (filterLab 1 []) (fun t => dropCount 0x10 t == 1)
    , after (.frameReceive .a (rawFrame 63) true true) (filterLab 1 []) (fun t => dropCount 0x0F t == 1)
    , after (.frameReceive .a (rawFrame 64) false true) (filterLab 1 []) (fun t => dropCount 0x12 t == 1)
    , after (.frameReceive .a (padTo 64 (beBytes 12 0 ++ beBytes 2 0x0800 ++ beBytes 6 0 ++ beBytes 2 0x2000)) true true) (filterLab 1 [])
        (fun t => dropCount 0x15 t == 1)
    , (filterLab 1 []).d.steer .a (rawFrame 64) == some 0 &&
        after (.frameReceive .a (rawFrame 64) true true) (filterLab 1 []) fun t => t.d.portA.fill == 64 && t.d.portA.hits == [(0, 1)]
    , after (.frameReceive .a (rawFrame 64) true true) (filterLab 1 ((1, fill 961 0, true) :: List.replicate 4095 (1, fill 1024 0, true))) (fun t => t.d.portA.fill == 4 * 2 ^ 20 - 63 && t.d.events 0x045 == 1)
    , regTest .smbus 0x3060 (.filterLoad .smbus .a) (lab fun d => d.onPath .smbus fun x => { x with staging := [(0x305C, 0x10001)] })
        (fun _ => true) (fun t => (t.d.filter .a 0).valid && (t.d.filter .a 0).cls == 1)
    , regTest .smbus 0x3060 (.filterLoad .smbus .a) (lab fun d => d.onPath .smbus fun x => { x with staging := [(0x305C, 7)] })
        (fun _ => true) (fun t => t.d.portA.link.cfgErr)
    , regTest .smbus 0x3060 (.filterFetch .smbus .a) (filterLab 1 []) (fun _ => true) (fun t => t.d.staged .smbus 0x305C == 0x10021)
    , regTest .smbus 0x3010 (.maxfrmWrite .smbus .a 4198) (lab id) (fun _ => true) (fun t => t.d.portA.maxFrm == 4198)
    , regTest .smbus 0x3010 (.maxfrmWrite .smbus .a 4197) (lab id) (fun _ => true) (fun t => t.d.portA.maxFrm == 9216 && t.d.portA.link.cfgErr)
    , regTest .smbus 0x301C (.addressWrite .smbus .a 0x01C 0x0A000001) (lab id) (fun _ => true) (fun t => t.d.portA.ip4 == 0x0A000001)
    ].all id = true := by decide +kernel

/-! Registers (RegisterAccess, IndexAndStoreRegisters). -/

/-- Island 2 is in reset. -/
def downLab : State := lab fun d => d.onUpd fun u => { u with inReset := [2] }

theorem wit_registers :
    [ after (.registerWrite .smbus 0x2010 7) (lab fun d => d.onPwr fun p => { p with cur := 8 }) (fun t => t.d.pwr.autoIdle == 0)
    , after (.registerWrite .smbus 0x3008 1) downLab (fun t => t.d.sys.smbus.islDown && t.d.sys.smbus.isl == 2 && t.d.events 0x006 == 1)
    , after (.registerAccessTimeout .admin 0x9000) (lab id) (fun t => t.d.sys.admin.islDown && t.d.events 0x006 == 1)
    , regTest .smbus 0x5000 (.selectWrite .smbus 0x5000 63) (lab id) (fun _ => selectClamp 0x5000 63 == none)
        (fun t => t.d.sel .smbus 0x5000 == 63 && t.d.sel .admin 0x5000 == 0)
    , regTest .smbus 0x8000 (.selectWrite .smbus 0x8000 31) (lab id) (fun _ => (selectMask 0x8000).isSome)
        (fun t => t.d.sel .smbus 0x8000 == 15)
    , regTest .smbus 0x1000 (.selectWrite .smbus 0x1000 0x30) (lab id) (fun _ => selectClamp 0x1000 0x30 == some 0x2F)
        (fun t => t.d.sys.smbus.selErr && t.d.events 0x007 == 1)
    , (selectMask 0x2010).isNone && after (.selectWrite .smbus 0x2010 7) (lab id) (fun t => t == lab id)
    , regTest .smbus 0x305C (.registerWrite .smbus 0x305C 0x10001) (lab id) (fun _ => isStaging 0x305C) (fun t => t.d.staged .smbus 0x305C == 0x10001)
    , regTest .smbus 0x2010 (.registerWrite .smbus 0x2010 0x10007) (lab id) (fun _ => true) (fun t => t.d.pwr.autoIdle == 7)
    , regTest .smbus 0xF004 (.registerWrite .smbus 0xF004 1) (lab id) (fun _ => true) (fun t => t.d.csc.high)
    , regTest .smbus 0x5104 (.registerWrite .smbus 0x5104 99) (lab id) (fun _ => true) (fun t => t.d.xpt.helloTo == 100)
    , regTest .smbus 0x913C (.registerWrite .smbus 0x913C 0) (lab id) (fun _ => true) (fun t => t.d.med.scrubIv == 1)
    , regTest .smbus 0xA100 (.registerWrite .smbus 0xA100 0x401) (lab id) (fun _ => true) (fun t => t.d.dmc.page == 1)
    , regTest .smbus 0x7000 (.halfLatchRead .smbus 0x7000) (lab fun d => d.onKvx fun k => { k with turnSer := 2 ^ 33 })
        (fun d => (State.pair .smbus 0x7000 { lab id with d := d }).isSome) (fun t => t.d.sys.smbus.latch == [(0x7004, 2)]) ].all id = true := by decide +kernel

/-- Two posted writes of a path: the second goes to the island in reset. -/
theorem wit_posted :
    [ ({ downLab.d with sys := { downLab.d.sys with posted := [{ path := .smbus, off := 0x3008, val := 1 }] } }.drain .smbus).sys.smbus.islDown
    , ({ downLab.d with sys := { downLab.d.sys with posted := [{ path := .admin, off := 0x3008, val := 1 }] } }.drain .smbus).sys.posted.length == 1
    , downLab.d.islState 2 != 0 ].all id = true := by decide +kernel

def labRow (t : Nat) : CamRow := { tile := t, row := 0, ks := 1, fp := 5, addr := 0 }

theorem wit_index_registers :
    [ regTest .smbus 0x6108 (.hwmclr .smbus) (labCtx id fun d => d.onHq fun h => { h with hwm := 9 }) (fun _ => true) (fun t => t.d.hq.hwm == 1)
    , regTest .smbus 0x8008 (.pfcfgWrite .smbus 0x800000FF) (lab fun d => { d with idx := { d.idx with cam := [labRow 0, labRow 1] } })
        (fun d => d.sel .smbus 0x8000 == 0 && !(d.idx.tile 0).fenced && !d.idx.patternQuad 0)
        (fun t => (t.d.idx.tile 0).pos == 138 && t.d.idx.cam == [labRow 1] && (t.d.idx.tile 0).upd == 1 && (t.d.idx.tile 1).upd == 1)
    , regTest .smbus 0x8100 (.tilecfgWrite .smbus 0) (lab id) (fun d => d.idx.workQuad.isSome) (fun t => t.d.idx.cfgErr && t.d.idx.pquad == 8)
    , regTest .smbus 0x8100 (.tilecfgWrite .smbus 3) (lab fun d => { d with idx := { d.idx with cam := [labRow 0, labRow 9] } }) (fun _ => true)
        (fun t => t.d.idx.pquad == 3 && t.d.idx.cam == [labRow 9])
    , after .configurationStoreWrite (lab fun d => { d with upd := { d.upd with cfgAt := some 5 }, clk := { d.clk with life := 14400000000004 } })
        (fun t => t.d.upd.cfgAt == some 5 && t.nv.flash.isEmpty) ].all id = true := by decide +kernel

/-- The store is written in open values: its condition is met from this life clock on. -/
theorem wit_store_written :
    [ (lab id).nv.wf && (lab id).d.reachable && (some 5).all fun t => decide (t + 14400000000000 ≤ 14400000000005) ].all id = true := by
  decide +kernel

/-! The drive cascade (CascadeRing). -/

def labCsc (f : Csc → Csc) : State := lab fun d => d.onCsc f

/-- The same at life clock `life`. -/
def labAt (life : Nat) (f : Csc → Csc) : State := lab fun d => (d.onCsc f).onClk fun c => { c with life := life }

/-- A FIND of SQ 1 with sequence number 7 that waits for the cascade with status `st`. -/
def findLab (st : Nat) (f : Csc → Csc) : State :=
  labCtx (fun c => { c with op := 0x13, turned := true, e := { c.e with cmd := padTo 16 [7] }, res := { status := st, stage := 10 } })
    fun d => d.onCsc fun c => f { c with en := true, inRing := true, clkOk := true, find := [(1, 40)] }

/-- FIND 40 of SQ 1 has settled with this status and these bytes. -/
def foundEnd (st : Nat) (b : Bytes) (t : State) : Bool :=
  (t.d.ctx? 1 40).any fun x => x.settled && x.res.status == st && (b.isEmpty || x.res.b == b)

def rollRun : Option Arb := some { find := none, sent := none }
def findRun : Option Arb := some { find := some (1, 40), sent := none }

theorem wit_ring :
    [ regTest .smbus 0xF000 (.clkmstWrite .smbus 4) (lab id) (fun d => !d.csc.clkMst && !d.csc.en) (fun t => t.d.csc.clkMst && t.d.csc.sampling)
    , regTest .smbus 0xF000 (.clkmstWrite .smbus 0) (labCsc fun c => { c with clkMst := true, drives := true, clkOk := true }) (fun _ => true)
        (fun t => !t.d.csc.drives && !t.d.csc.clkOk)
    , after (.clockSampleEnd false) (labCsc fun c => { c with clkMst := true, sampling := true }) (fun t => t.d.csc.drives)
    , after (.clockSampleEnd true) (labCsc fun c => { c with clkMst := true, sampling := true }) (fun t => !t.d.csc.drives && t.d.csc.dupMst && t.d.events 0x1F9 == 1)
    , regTest .smbus 0xF000 (.cascadeEnable .smbus 1) (lab id) (fun _ => true) (fun t => t.d.csc.en)
    , regTest .smbus 0xF000 (.cascadeEnable .smbus 0) (findLab 0 id) (fun d => d.soleCtx 1 40) (fun t => foundEnd 0x9001 (leBytes 4 0x0C000005) t && !t.d.csc.en)
    , after .ringJoin (labCsc fun c => { c with en := true }) (fun t => t.d.csc.inRing && t.d.csc.run.isNone)
    , after .ringJoin (labCsc fun c => { c with en := true, clkMst := true, drives := true }) (fun t => t.d.csc.inRing && t.d.csc.run.isSome)
    , after .rollCallTimer (labAt 100000000 fun c => { c with drives := true, inRing := true }) (fun t => t.d.csc.run.isSome)
    , after .rollCallTimer (labAt 100000000 fun c => { c with drives := true, inRing := true, run := rollRun }) (fun t => t.d.csc.due)
    , after .rollCallTimer (labAt 99999999 fun c => { c with drives := true, inRing := true }) (fun t => t.d.csc.run.isNone && !t.d.csc.due)
    , after .rollCallTimer (labAt 100000000 fun c => { c with drives := true, inRing := true, find := [(1, 40)], run := rollRun }) (fun t => t.d.csc.run == rollRun && t.d.csc.due)
    , after .rollCallTimer (lab id) (fun t => t == lab id)
    , regTest .smbus 0xF000 (.rollnow .smbus) (labCsc fun c => { c with en := true, drives := true, inRing := true }) (fun d => d.csc.drives) (fun t => t.d.csc.run.isSome)
    , after (.pass1Return true 0 false 1 none) (labCsc fun c => { c with inRing := true }) (fun t => t.d.csc.dupSlot && t.d.events 0x1FA == 1)
    , after (.pass1Return true 0 false 2 none) (labCsc fun c => { c with inRing := true }) (fun t => !t.d.csc.dupSlot)
    , after (.pass2Receive true false 0 false 6 0 false) (labCsc fun c => { c with inRing := true }) (fun t => t.d.csc.roll == 6)
    , after .cascClkLoss (labCsc fun c => { c with drives := true, inRing := true }) (fun t => t.d.csc.inRing)
    , after .cascClkLoss (labCsc fun c => { c with inRing := true }) (fun t => !t.d.csc.inRing)
    , after .cascClkLoss (findLab 0 id) (fun t => foundEnd 0x9001 (leBytes 4 0x0C000001) t)
    , after .cscSyncto (lab id) (fun t => t == lab id)
    , after .cscSyncto (findLab 0 id) (fun t => t == findLab 0 id)
    , after .cscSyncto { findLab 0 id with d := (findLab 0 id).d.onClk fun c => { c with life := 10000000 } } (fun t => foundEnd 0x9001 (leBytes 4 0x0C000002) t && t.d.csc.syncTo && t.d.events 0x1FD == 1) ].all id = true := by
  decide +kernel

theorem wit_arbitration :
    [ after .arbitrationStart (findLab 0 id) (fun t => t.d.csc.run == findRun && t.d.csc.arb == 1 && t.d.csc.lastSeq == 7)
    , after .arbitrationStart (lab id) (fun t => t == lab id)
    , after (.pass1Return false 7 false 6 (some 0)) (findLab 0x1001 fun c => { c with drives := true, run := findRun })
        (fun t => t.d.csc.run.any fun w => w.sent.any fun f => f.win == 1 && f.valid)
    , after (.pass1Return false 7 false 6 (some 0)) (findLab 0x1001 fun c => { c with drives := true, high := true, run := findRun })
        (fun t => t.d.csc.run.any fun w => w.sent.any fun f => f.win == 2)
    , after (.pass2Receive false false 7 false 1 0 true) (findLab 0 fun c => { c with run := findRun }) (fun t => t.d.csc.won == 1 && !foundEnd 0 [] t)
    , after (.pass2Receive false false 7 false 2 1 true) (findLab 0 fun c => { c with run := findRun }) (fun t => t.d.csc.supp == 1 && foundEnd 0x1001 [] t)
    , after (.pass2Receive false false 7 false 2 1 true) (findLab 0x1001 fun c => { c with run := findRun }) (fun t => t.d.csc.supp == 0 && foundEnd 0x1001 [] t)
    , after (.pass2Receive false false 7 true 2 1 false) (findLab 0 fun c => { c with run := findRun }) (fun t => foundEnd 0x9001 (leBytes 4 0x0C000003) t && t.d.events 0x1FC == 1)
    , after (.pass2Receive false true 7 false 2 1 false) (findLab 0 fun c => { c with run := findRun, headVoids := 1 }) (fun t => t.d.csc.headVoids == 2 && t.d.events 0x1FB == 1)
    , after (.pass2Receive false true 7 false 2 1 false) (findLab 0 fun c => { c with run := findRun, headVoids := 2 }) (fun t => foundEnd 0x9001 (leBytes 4 0x0C000004) t)
    ].all id = true := by decide +kernel

/-! Crypto cores, digests, tenant blobs, DRAM (CryptoCores, DigestsAndBlobs, DramChannels). A tenant blob that opens needs the open
device secret and has no evaluated witness. -/

def labCry (f : Cry → Cry) : State := labCtx id fun d => d.onCry f

def running40 (n : Nat) : CryCtx := { id := 40, cls := 0, digest := false, place := .running n }

/-- Contexts 40 of every class on all AES cores. -/
def fullAes (c : Cry) : Cry := { c with ctxs := (List.range 16).map fun n => { running40 n with cls := 1 } }

/-- The same at life clock `life`. -/
def cryAt (life : Nat) (f : Cry → Cry) : State := labCtx id fun d => (d.onCry f).onClk fun c => { c with life := life }

def busErr (c : Nat) (f : Cry → Cry) : State := labCry fun x => f { x with ctxs := [running40 c] }

theorem wit_cores :
    [ after (.cipherPreempt false 0 40) (labCry id) (fun t => t.d.cry.ctxs == [running40 0])
    , after (.cipherPreempt false 0 40) (cryAt 660 fullAes) (fun t => t.d.cry.preempts == 1 && t.d.cry.ctxs.length == 17 &&
        t.d.cry.ctxs.getLast? == some { running40 0 with since := 660 })
    , after (.cipherPreempt false 0 40) (cryAt 700 fullAes) (fun t => t.d.cry.preempts == 0 && t.d.cry.ctxs.head?.map (·.due) == some (some 1320) &&
        t.d.cry.ctxs.getLast? == some { running40 0 with place := .waiting })
    , after (.cipherPreempt false 0 40) (cryAt 659 fullAes) (fun t => t.d.cry.ctxs.all (·.due.isNone) && t.d.cry.ctxs.length == 17)
    , after (.cipherPreempt false 0 99) (cryAt 660 fullAes) (fun t => t == cryAt 660 fullAes)
    , after (.cipherPreempt false 0 40) (cryAt 1320 fun c => { fullAes c with ctxs := ((fullAes c).ctxs.map fun x =>
          if x == { running40 0 with cls := 1 } then { x with due := some 1320 } else x) ++ [{ running40 0 with place := .waiting }] })
        (fun t => t.d.cry.preempts == 1 && t.d.cry.ctxs.getLast? == some { running40 0 with since := 1320 } &&
          t.d.cry.ctxs.any fun x => x == { running40 0 with cls := 1, place := .saved 0, units := 2 })
    , after .cryKeysRestored (labCry fun c => { c with lost := true, blobBusy := true, blobHeld := some (fill 192 0) })
        (fun t => !t.d.cry.lost && !t.d.cry.blobBusy && t.d.cry.blobHeld.isNone && t.d.events 0x1C7 == 1)
    , after (.cipherPreempt false 2 0) (labCry fullAes) (fun t => t.d.cry.ctxs.length == 16)
    , after (.katRound 0 0 true) (lab id) (fun t => t.d.cry.katAt == some 0 && !t.d.cry.katRun)
    , after (.katRound (BitVec.ofNat 16 8) 0 false) (busErr 3 id) (fun t => t.d.cry.aesFence == 8 && t.d.cry.alarm == 16 && t.d.cry.ctxs.isEmpty && t.d.events 0x1C3 == 1)
    , regTest .smbus 0xB10C (.katNow .smbus) (lab id) (fun _ => true) (fun t => t.d.cry.katRun)
    , after (.cryBusError 3) (busErr 3 id) (fun t => t.d.cry.alarm == 8 && t.d.cry.aesFence == 0 && (t.d.ctx? 1 40).any fun c => !c.settled && c.fail.any (·.status == 0x9001))
    , after (.cryBusError 3) (busErr 3 fun c => { c with busErrs := [(3, 0), (3, 0)] }) (fun t => t.d.cry.fenced 3)
    , (busErr 3 id).d.soleCtx 1 40 && ((busErr 3 id).d.kvx.ctxs.find? fun c => c.ord == 40 && !c.settled) == some onKs1
    , after .cryVoltageAlarm (busErr 3 id) (fun t => t.d.cry.alarm == 1 && t.d.cry.ctxs.isEmpty && t.d.events 0x1C2 == 1)
    , after .cryClockAlarm (busErr 3 id) (fun t => t.d.cry.alarm == 2 && t.d.cry.ctxs.isEmpty)
    , after .cryTamperAlarm (labCry id) (fun t => t.d.cry.alarm == 4 && t.d.cry.lost)
    , after .cryKeysRestored (labCry fun c => { c with lost := true }) (fun t => !t.d.cry.lost && t.d.events 0x1C7 == 1)
    , after .cryKeysRestored (labCry id) (fun t => t == labCry id) ].all id = true := by decide +kernel

/-- Digest context 0 changed. -/
def labDig (f : DigCtx → DigCtx) : State := lab fun d => (slotLab d).onCry fun c => { c with dig := f DigCtx.reset :: c.dig.drop 1 }

/-- Digest context 0 then. -/
def dig0 (p : DigCtx → Bool) (t : State) : Bool := (t.d.cry.dig[0]?).any p

/-- A write to a digest register from context 0 changed. -/
def digTest (off : Nat) (i : Instr) (f : DigCtx → DigCtx) (p : DigCtx → Bool) : Bool :=
  regTest .smbus off i (labDig f) (fun d => d.sel .smbus 0xC000 == 0) (dig0 p)

theorem wit_digests :
    [ digTest 0xC004 (.digStart .smbus 0x80010000) id (fun g => g.isOpen && g.alg == 1)
    , digTest 0xC004 (.digStart .smbus 0x80040003) id (fun g => g.isOpen && g.alg == 4 && g.key == [7])
    , digTest 0xC004 (.digStart .smbus 0x80070003) id (·.err)
    , digTest 0xC004 (.digStart .smbus 0x80040004) id (·.err)
    , digTest 0xC004 (.digStart .smbus 0x00040003) id (fun g => !g.isOpen && g.alg == 4 && g.slot == 3)
    , digTest 0xC014 (.digPush .smbus 1) (fun g => { g with isOpen := true, wlo := 0x01020304 }) (fun g => g.msg == [4, 3, 2, 1, 0, 0, 0, 0])
    , digTest 0xC014 (.digPush .smbus 1) id (·.err)
    , digTest 0xC018 (.digLast .smbus 8) (fun g => { g with isOpen := true }) (fun g => g.busy && g.msg.length == 8)
    , digTest 0xC018 (.digLast .smbus 9) (fun g => { g with isOpen := true }) (·.err)
    , after (.digDone 0) (labDig fun g => { g with busy := true, msg := [97, 98, 99] }) (dig0 fun g => g.done && g.res == sha256 [97, 98, 99])
    , after (.digDone 0) (labDig id) (dig0 fun g => !g.done)
    , regTest .admin 0xB3C0 (.blobLoad .admin) (lab id) (fun _ => true) (fun t => t.d.cry.blobStatus == 0x8001)
    , regTest .smbus 0xB3C0 (.blobLoad .smbus) (lab fun d => d.onCry fun c => { c with lost := true }) (·.cry.lost) (fun t => t.d.cry.blobBusy && t.d.cry.blobHeld.isSome)
    , regTest .smbus 0xB3C0 (.blobLoad .smbus) (lab fun d => d.onUpd fun u => { u with sanState := 1 })
        (fun d => (d.blobRefused (d.stagedBlob .smbus)).isSome) (fun t => t.d.cry.blobStatus == 0x3001 && !t.d.cry.blobBusy)
    , regTest .smbus 0xB3C0 (.blobLoad .smbus) (lab fun d => d.onCry fun c => { c with aesFence := 0xFFFF }) (fun d => (d.blobRefused (d.stagedBlob .smbus)).isNone)
        (fun t => t.d.cry.blobStatus == 0x9001)
    , regTest .smbus 0xB3C0 (.blobLoad .smbus) (lab id) (fun d => !d.cry.p384Bad)
        (fun t => t.d.cry.blobStatus == 0x2002 && t.d.cry.blobReason == 0xFF && t.d.cry.blobF == 1 && t.d.events 0x1C0 == 1) ].all id = true := by
  decide +kernel

/-- DRAM channel 2 changed. -/
def labDram (f : Dram → Dram) : State := lab fun d => d.onDmc fun m => { m with chans := m.chans.take 2 ++ [f Dram.reset] ++ m.chans.drop 3 }

def dram2 (t : State) : Dram := t.d.dmc.chan 2

/-- The interval after which a channel is retrained has passed. -/
def retrainLab (f : Dram → Dram) : State := let s := labDram f; { s with d := { s.d with clk := { s.d.clk with life := 1800000000000 } } }

theorem wit_dram :
    [ after .patrolTimer (lab id) (fun t => t.d.dmc.patrol)
    , after .patrolTimer (lab fun d => d.onDmc fun m => { m with patrol := true }) (fun t => t.d.dmc.patrol)
    , regTest .smbus 0xA108 (.patrolStart .smbus) (lab id) (fun d => !d.dmc.patrol) (fun t => t.d.dmc.patrol)
    , after .patrolEnd (lab fun d => d.onDmc fun m => { m with patrol := true }) (fun t => !t.d.dmc.patrol && t.d.dmc.patrolAt == some 0)
    , after (.dramRetrainTimer 2) (retrainLab id) (fun t => (dram2 t).state == 2 && t.d.upd.actions.map (fun a => (a.code, a.target)) == [(8, 2)])
    , after (.dramRetrainTimer 2) (retrainLab fun c => { c with state := 5 }) (fun t => (dram2 t).state == 5 && t.d.upd.actions.isEmpty)
    , regTest .smbus 0xA108 (.dramRetrain .smbus) (lab fun d => d.onPath .smbus fun x => { x with sel := [(0xA000, 2)] }) (fun d => !d.dmc.moving)
        (fun t => (dram2 t).state == 2 && t.d.upd.actions.map (·.host) == [true])
    , after (.trainingComplete 2) (labDram fun c => { c with state := 2, target := 3 }) (fun t => (dram2 t).state == 0 && (dram2 t).stored == 4 && (dram2 t).trains == 1)
    , after (.speedSwitchDone 2) (labDram fun c => { c with state := 3, target := 2 }) (fun t => (dram2 t).state == 0 && (dram2 t).speed == 2)
    , after (.speedSwitchDone 2) (lab id) (fun t => (dram2 t).speed == 0)
    , after (.parityAlert 2 false) (lab id) (fun t => (dram2 t).state == 1 && (dram2 t).par == 1 && (t.d.dmc.queue 2).stopped == [false])
    , after (.replayComplete 2 true false) (labDram fun c => { c with state := 1, fails := 2 }) (fun t => (dram2 t).state == 0 && (dram2 t).replays == 1)
    , after (.replayComplete 2 false true) (labDram fun c => { c with state := 1, fails := 1 }) (fun t => (dram2 t).fails == 2 && t.d.events 0x1E2 == 1)
    , after (.replayComplete 2 false false) (labDram fun c => { c with state := 1, fails := 2 }) (fun t => (dram2 t).state == 4 && t.d.events 0x1E2 == 1)
    , (let t := (labDram fun c => { c with state := 4, retEnd := some 0 }).retireEnds; (dram2 t).state == 5 && t.d.events 0x1E3 == 1)
    , (let t := (labDram fun c => { c with state := 4, retEnd := some 1 }).retireEnds; (dram2 t).state == 4 && t.d.events 0x1E3 == 0)
    , after (.dramUncorrectable 2 false 1 5 none true) (labDram fun c => { c with ueAt := List.replicate 15 0 })
        (fun t => (dram2 t).ue == 1 && (dram2 t).state == 0 && (dram2 t).errAddr == 5 && t.d.events 0x1E1 == 1)
    , after (.dramUncorrectable 2 false 1 5 none true) (labDram fun c => { c with ueAt := List.replicate 16 0 }) (fun t => (dram2 t).state == 4)
    , after (.dramUncorrectable 2 false 0 5 (some 65) true) (stagedLab (some 3)) (fun t => t.d.pwr.cur == 0 && t.d.bank.holdUps == 1 && t.d.kvx.staged.any (·.recId == 65)) ].all id = true := by decide +kernel

/-! BOOT, activation, live actions, self-test, SANITIZE (BootAndReplay, ActivationAndRollback, LiveActions, SelftestAndSanitize). Signing keys
and the device secret are open values: an image that verifies exists for whoever holds the key, so `wit_image_boots` has the signature's
verification as its hypothesis. -/

/-- An image header of revision 7, body 4 KiB of 0xFF, with signature `sig` (R543). -/
def imgFront : Bytes := ascii "CRKI" ++ leBytes 2 1 ++ [0, 0] ++ leBytes 8 7 ++ leBytes 4 4096 ++ leBytes 2 0 ++ leBytes 2 1 ++ fill 8 0
def imgBack (sig : Bytes) : Bytes := fill 176 0 ++ (sig ++ fill 3744 0)
def imgHead (sig : Bytes) : Bytes := imgFront ++ (sha384 (fill 4096 0xFF) ++ imgBack sig)

/-- The flash with that image in slot `k` and nothing else. -/
def imgNv (k : Nat) (sig : Bytes) : Nv := ({ flash := [], fuses := 0 } : Nv).write (slotBase k) (imgHead sig)

theorem imgFront_length : imgFront.length = 32 := by decide +kernel

theorem imgHead_length (sig : Bytes) (h : sig.length = 96) : (imgHead sig).length = 4096 := by
  simp only [imgHead, imgBack, List.length_append, sha384_length, h, fill, List.length_replicate, imgFront_length]

theorem img_front (sig : Bytes) (o n : Nat) (h : o + n ≤ 32) : slice (imgHead sig) o n = slice imgFront o n :=
  slice_head _ _ _ _ (by rw [imgFront_length]; exact h)

theorem img_back (sig : Bytes) (o n : Nat) (h : 80 ≤ o) : slice (imgHead sig) o n = slice (imgBack sig) (o - 80) n := by
  rw [imgHead, slice_tail _ _ _ _ (by rw [imgFront_length]; omega), slice_tail _ _ _ _ (by rw [sha384_length, imgFront_length]; omega),
    sha384_length, imgFront_length, Nat.sub_sub]

theorem img_mid (sig : Bytes) : slice (imgHead sig) 32 48 = sha384 (fill 4096 0xFF) := by
  rw [imgHead, slice_tail _ _ _ _ (Nat.le_of_eq imgFront_length), slice_head _ _ _ _ (by simp [sha384_length, imgFront_length])]
  simp [slice, sha384_length, imgFront_length, fill, List.take_of_length_le]

/-- It passes check 1 of R544. -/
theorem img_headerOk (sig : Bytes) (h : sig.length = 96) : headerOk (imgHead sig) = true := by
  have a : (imgHead sig).take 4 = ascii "CRKI" := by
    simp [imgHead, imgFront, List.append_assoc, ascii]
  have z1 : slice (imgBack sig) 0 0xB0 = fill 0xB0 0 := by
    rw [imgBack, slice_head _ _ _ _ (by simp only [fill, List.length_replicate]; omega)]; decide +kernel
  have z2 : slice (imgBack sig) (0x160 - 80) 0xEA0 = fill 0xEA0 0 := by
    rw [imgBack, slice_tail _ _ _ _ (by simp only [fill, List.length_replicate]; omega),
      slice_tail _ _ _ _ (by simp only [fill, List.length_replicate, h]; omega), h]
    decide +kernel
  simp only [headerOk, a, byteAt, le, img_front sig 4 2 (by omega), img_front sig 6 1 (by omega), img_front sig 0x10 4 (by omega),
    img_front sig 7 1 (by omega), img_front sig 0x1A 6 (by omega), img_back sig 0x50 0xB0 (by omega), img_back sig 0x160 0xEA0 (by omega), z1, z2]
  decide +kernel

theorem img_header (k : Nat) (sig : Bytes) (h : sig.length = 96) : (imgNv k sig).header k = imgHead sig := by
  have := Nv.read_write (slotBase k) (imgHead sig) { flash := [], fuses := 0 } (by decide)
  rwa [imgHead_length sig h] at this

theorem img_body (k : Nat) (sig : Bytes) (h : sig.length = 96) :
    (imgNv k sig).read (slotBase k + 4096) 4096 = fill 4096 0xFF := by
  refine List.ext_getElem (by simp [Nv.read, fill]) fun i h1 h2 => ?_
  simp only [Nv.read, List.getElem_map, List.getElem_range, fill, List.getElem_replicate]
  rw [imgNv, Nv.flashByte_write_other _ _ _ _ (by decide) (by rw [imgHead_length sig h]; omega)]
  rfl

/-- Its body hashes as its header says. -/
theorem wit_image_body (k : Nat) (sig : Bytes) (h : sig.length = 96) : (imgNv k sig).bodyOk k = true := by
  have e : le (imgHead sig) 0x10 4 = 4096 := by rw [le, img_front sig 0x10 4 (by omega)]; decide +kernel
  simp [Nv.bodyOk, img_header k sig h, img_headerOk sig h, e, img_body k sig h, img_mid]

/-- An image whose signature verifies under the open signing key: the boot ROM runs slot 0. -/
theorem wit_image_boots (sig : Bytes) (h : sig.length = 96)
    (k : ecdsaVerify (Config.signKey 0) (sha384 ((imgHead sig).take 256)) (beNat (slice (imgHead sig) 0x100 48)) (beNat (slice (imgHead sig) 0x130 48)) = true) :
    (imgNv 0 sig).verify 0 = 0 := by
  have e : le (imgHead sig) 0x10 4 = 4096 := by rw [le, img_front sig 0x10 4 (by omega)]; decide +kernel
  have f : byteAt (imgHead sig) 6 = 0 := by rw [byteAt, le, img_front sig 6 1 (by omega)]; decide +kernel
  have z : (imgNv 0 sig).fuses = 0 := rfl
  simp [Nv.verify, img_header 0 sig h, img_headerOk sig h, e, f, img_body 0 sig h, img_mid, z, k]

/-- Below the image slots it is erased. -/
theorem img_erased (k a n : Nat) (sig : Bytes) (h : a + n ≤ 0x100000) : (imgNv k sig).read a n = fill n 0xFF := by
  refine List.ext_getElem (by simp [Nv.read, fill]) fun i h1 h2 => ?_
  simp only [Nv.read, List.getElem_map, List.getElem_range, fill, List.getElem_replicate]
  simp only [fill, List.length_replicate] at h2
  rw [imgNv, Nv.flashByte_write_other _ _ _ _ (by decide) (by simp only [slotBase]; omega)]
  rfl

/-- Below the image slots the flash is erased. -/
def LowErased (v : Nv) : Prop := ∀ a n, a + n ≤ 0x100000 → v.read a n = fill n 0xFF

theorem erased_deciding (v : Nv) (h : LowErased v) : v.deciding = none := by
  have a : v.bootCopy 0 = none := by
    simp only [Nv.bootCopy, h (0x10000 * 0) 64 (by omega)]; rw [if_neg (by decide +kernel)]
  have b : v.bootCopy 1 = none := by
    simp only [Nv.bootCopy, h (0x10000 * 1) 64 (by omega)]; rw [if_neg (by decide +kernel)]
  simp only [Nv.deciding, a, b]

theorem erased_slot (v : Nv) (h : LowErased v) : v.boot.slot = 0 ∧ v.boot.trial = false := by
  simp only [Nv.boot, erased_deciding v h, and_self]

/-- Without a boot record slot 0 is active and slot 1, with the image, inactive. -/
theorem wit_inactive_image (sig : Bytes) (h : sig.length = 96) : (imgNv 1 sig).bodyOk (imgNv 1 sig).inactive = true := by
  rw [Nv.inactive, (erased_slot _ fun a n => img_erased 1 a n sig).1]
  exact wit_image_body 1 sig h

/-- What BOOT asks of the flash (BootAndReplay): the boot ROM runs an image, and no preload record waits. -/
theorem wit_boot_runs (v : Nv) (h : LowErased v) (k : v.verify 0 = 0) : v.bootRom.1 = some 0 ∧ v.bootRom.2.2.preload.1 = [] := by
  have f : v.bootFirst = (0, [], v) := by
    simp only [Nv.bootFirst, (erased_slot v h).1, (erased_slot v h).2, Bool.false_eq_true, if_false]
  have p : v.preload.1 = [] := by
    simp only [Nv.preload, h preloadBase 64 (by decide)]; rw [if_pos (by decide +kernel)]
  simp only [Nv.bootRom, f, k, if_true, p, and_self]

def noFinds : BootFinds :=
  { coresPass := 0xFFFFFFFF, aesFail := 0, digFail := 0, tilesFail := 0, p384Ok := true, lost := [3], indexLost := false, calOk := true, timeOk := true }

def booting (f : Drive → Drive) : State := lab fun d => f (d.onPwr fun p => { p with cur := 1 })

/-- An unjournalled record that is lost, one of its domain, one of another domain. -/
def lostLog : List CommitRec :=
  [labLog, { labLog with serial := 4, journaled := true }, { labLog with serial := 5, domain := 3, journaled := true }]

theorem wit_boot :
    [ (booting id).nv.bootRom.1 == none && after (.boot noFinds) (booting id) fun t => t.d.pwr.cur == 2 && t.d.events 0x001 == 1
    , (keepRecords ({ Kvx.reset with log := lostLog }.doomed [3]) lostLog []).1.map (·.serial) == [5]
    , after (.replayDone 70000) (booting fun d => (d.onKvx fun k => { k with log := [labLog] }).onUpd fun u => { u with bootRun := some 0 })
        (fun t => t.d.pwr.cur == 3 && t.d.kvx.log.isEmpty && t.d.kvx.base == t.d.kvx.store && t.d.bank.replayMs == 0xFFFF && t.d.events 0x017 == 1)
    , after (.boot noFinds) (lab id) (fun t => t == lab id) ].all id = true := by decide +kernel

/-- A live action that runs. -/
def labAct (code op target : Nat) : Action :=
  { serial := 4, code := code, op := op, target := target, state := 0, host := true, start := 0, stop := 0, stall := 0 }

def actLab (a : Action) (f : Drive → Drive) : State := lab fun d => f (d.onUpd fun u => { u with actions := [a], actSerial := 4 })

/-- An FWACTIVATE that waits for the live activation. -/
def activating (d : Drive) : Drive :=
  (inStage 3 d).onKvx fun k => { k with ctxs := [{ onKs1 with op := 0x52, turned := true }] }

/-- In TRIAL until life clock 5. -/
def trialLab (life : Nat) : State := lab fun d => (d.onUpd fun u => { u with stage := 4, trialEnd := some 5 }).onClk fun c => { c with life := life }

theorem wit_activation :
    [ after .trialTimeout (trialLab 5) (fun t => t.d.upd.stage == 5 && t.d.upd.cause == 0 && t.d.upd.actions.map (·.code) == [0x0E])
    , after .trialTimeout (trialLab 4) (fun t => t.d.upd.stage == 4)
    , after .trialTimeout (lab id) (fun t => t == lab id)
    , regTest .smbus 0xE01C (.updRollback .smbus 0x55000001) (trialLab 0) (fun _ => true) (fun t => t.d.upd.stage == 5 && t.d.upd.cause == 1)
    , regTest .smbus 0xE01C (.updRollback .smbus 0x54000001) (trialLab 0) (fun _ => true) (fun t => t.d.upd.stage == 4 && t.d.upd.cmdErr)
    , regTest .smbus 0xE01C (.updRollback .smbus 0x55000001) (lab id) (fun _ => true) (fun t => t.d.upd.cmdErr)
    , (actLab (labAct 0x0E 0 1) activating).d.activator.any fun c => (actLab (labAct 0x0E 0 1) activating).d.soleCtx c.sq c.ord
    , ((actLab (labAct 0x0E 0 1) activating).d.upd.running.find? fun a => a.serial == 4) == some (labAct 0x0E 0 1)
    , after (.liveActionEnd 4 true 9) (actLab (labAct 0x0E 0 1) (inStage 5)) (fun t => t.d.upd.stage == 0 && t.d.events 0x1F3 == 1)
    , after (.liveActionEnd 4 false 9) (actLab (labAct 0x0E 0 1) (inStage 5)) (fun t => t.d.upd.stage == 4 && t.d.events 0x1F5 == 1) ].all id = true := by
  decide +kernel

/-- A write to `ISL_ACT` with this code and target. -/
def actTest (code t : Nat) (i : Path → Word → Instr) (q : State → Bool) : Bool :=
  let v : Word := BitVec.ofNat 32 (0x49000000 + code * 65536 + t)
  regTest .smbus 0x1100 (i .smbus v) (lab id) (fun d => field v.toNat 24 8 == 0x49 && !d.actBusy (actIsland code t)) q

/-- A write to `ISL_CMD` for island `n`. -/
def islTest (n cmd : Nat) (f : Drive → Drive) (i : Path → Word → Instr) (q : State → Bool) : Bool :=
  let v : Word := BitVec.ofNat 32 (0x49000000 + cmd)
  regTest .smbus 0x1008 (i .smbus v) (lab fun d => f (d.onPath .smbus fun x => { x with sel := [(0x1000, n)] }))
    (fun d => d.sel .smbus 0x1000 == n && islAllowed cmd n && !d.actBusy n && decide (n < 9 ∨ 12 ≤ d.upd.workingWithout n)) q

theorem wit_actions :
    [ regTest .smbus 0x1100 (.actTileFence .smbus 0x48020000) (lab id) (fun _ => true) (fun t => t.d.upd.actErr)
    , actTest 1 29 .actCoreReplace (fun t => !t.d.upd.cores.getLsbD 29 && t.d.upd.cores.getLsbD 30 && t.d.events 0x00B == 1)
    , actTest 2 3 .actTileFence (fun t => (t.d.idx.tile 3).fenced && t.d.events 0x182 == 1)
    , actTest 3 510 .actDieRetire (fun t => (t.d.med.die 510).state == 3 && (t.d.med.die 511).pos == 14)
    , actTest 4 511 .actDieRecalibrate (fun t => t.d.upd.actions.map (·.code) == [4])
    , actTest 5 3 .actLaneRetrain (fun t => t.d.upd.actions.map (·.code) == [5])
    , regTest .smbus 0x1008 (.islFence .smbus 0x48000001) (lab id) (fun _ => true) (fun t => t.d.upd.actErr)
    , islTest 9 1 id .islFence (fun t => t.d.upd.fenced == [9] && t.d.upd.actions.map (·.code) == [0x0D])
    , islTest 3 1 id .islFence (fun t => t.d.upd.fenced == [3])
    , islTest 2 2 (fun d => d.onUpd fun u => { u with fenced := [2] }) .islRelease (fun t => t.d.upd.fenced == [2] && t.d.upd.actions.map (·.op) == [2])
    , islTest 6 3 id .islReset (fun t => t.d.upd.inReset == [6] && t.d.idx.cam.isEmpty)
    , islTest 0x2F 3 id .islReset (fun t => t.d.upd.inReset == [0x2F])
    , after (.coreFailure 0) (lab id) (fun t => !t.d.upd.cores.getLsbD 0 && t.d.upd.cores.getLsbD 6 && t.d.upd.actions.map (·.code) == [1])
    , after (.coreFailure 6) (lab id) (fun t => !t.d.upd.spares.getLsbD 6 && t.d.upd.fencedCores.getLsbD 6)
    , after (.liveActionEnd 4 true 0) (actLab (labAct 0x06 2 2) fun d => d.onUpd fun u => { u with fenced := [2, 3] }) (fun t => t.d.upd.fenced == [3])
    , after (.liveActionEnd 4 true 0) (actLab (labAct 0x0C 3 6) fun d => d.onUpd fun u => { u with inReset := [6] }) (fun t => t.d.upd.inReset.isEmpty)
    , after (.liveActionEnd 4 false 0) (actLab (labAct 4 0 9) id) (fun t => t.d.med == labDrive.med)
    , ((actLab (labAct 4 0 9) id).d.upd.running.find? fun a => a.serial == 4) == some (labAct 4 0 9)
    , after (.liveActionEnd 5 true 0) (actLab (labAct 4 0 9) id) (fun t => t.d.upd.actions == [labAct 4 0 9]) ].all id = true := by decide +kernel

def unitOf (ok last : Bool) : TestUnit :=
  { part := 2, ok := ok, unit := 7, locator := 9, read := 10, step2 := 1, waited := 2, progress := 50, last := last }

def testOf (t : State) : Option (Nat × Nat × Nat) := t.d.upd.tests.head?.map fun x => (x.state, x.pct, x.read)

/-- A SANITIZE at step `n`. -/
def sanLab (n : Nat) (block : Bool) (f : Drive → Drive) : State :=
  lab fun d => f ((slotLab d).onUpd fun u => { u with sanState := 1, sanStep := n, sanBlock := block })

theorem wit_selftest_sanitize :
    [ after (.selftestUnit (unitOf true false)) (lab oneTest) (fun t => testOf t == some (1, 50, 10))
    , after (.selftestUnit (unitOf true true)) (lab oneTest) (fun t => testOf t == some (2, 100, 10) && t.d.events 0x1F8 == 1)
    , after (.selftestUnit (unitOf false false)) (lab oneTest) (fun t => (testOf t).any (·.1 == 3) && t.d.upd.tests.map (fun x => (x.part, x.unit)) == [(2, 7)])
    , after (.selftestUnit (unitOf true true)) (lab id) (fun t => t == lab id)
    , after (.selftestUnit { unitOf true false with part := 7, locator := 7 * 2 ^ 14 })
        (let s := segLab .sealed id; { s with d := oneTest (s.d.onMed fun m => { m with marks := [] }) }) (fun t => t.d.med.marks == [5])
    , after (.selftestUnit { unitOf true false with part := 8 }) (lab oneTest) (fun t => t.d.dmc.patrol)
    , after (.sanitizeStepComplete 0) (lab id) (fun t => t == lab id)
    , ((sanLab 1 true id).d.sanStep 0).upd.sanStep == 2 && ((sanLab 1 true id).d.sanStep 0).kvx.store.recs == labStore.recs
    , ((sanLab 2 true id).d.sanStep 0).upd.sanStep == 3
    , ((sanLab 3 true id).d.sanStep 0).upd.sanStep == 4 && ((sanLab 3 true id).d.sanStep 0).kvx.store.slots.isEmpty
    , ((sanLab 4 true id).d.sanStep 0).upd.sanStep == 5 && ((sanLab 4 true id).d.sanStep 0).kvx.store.recs.isEmpty
    , ((sanLab 4 false id).d.sanStep 0).upd.sanState == 2
    , ((sanLab 5 true id).d.sanStep 0).upd.sanState == 2 && ((sanLab 5 true id).d.sanStep 0).events 0x1F7 == 1 ].all id = true := by decide +kernel

/-! The management bus (BusMessages, RegisterAndRecoveryMessages, SealedSession). A session's keys come from an open device secret: what
an OPEN gives for keys has no evaluated witness. -/

def labMgmt (f : Mgmt → Mgmt) : State := lab fun d => d.onMgmt f

/-- A packet of endpoint 8 with tag 2 to the drive: flags, body, and its PEC or a wrong one. -/
def packetOf (flags : Byte) (body : Bytes) (good : Bool) : Bytes :=
  let p := [0xB0, 0x0F] ++ leBytes 1 (body.length + 5) ++ [0x21, 0x01, 0x00, 0x08, flags] ++ body
  p ++ [if good then pec p else pec p + 1]

/-- The last response, when the command answers it. -/
def replies (i : Instr) (s : State) (r : Bytes) : Bool := after i s fun t => t.d.mgmt.resp == [r] && t.d.mgmt.out == s.d.mgmt.out ++ [r]

theorem wit_bus :
    [ after (.mctpPacket (packetOf 0xCA [0, 0x80, 2] false)) (lab id) (fun t => t.d.mgmt.pecErr == 1 && t.d.mgmt.out.isEmpty)
    , after (.mctpPacket (packetOf 0xCA [0, 0x80, 2] true)) (lab id) (fun t => t.d.mgmt.out.map (·.length) == [16] && t.d.mgmt.pecErr == 0)
    , after (.mctpPacket (packetOf 0x8A (fill 64 0) true)) (lab id) (fun t => t.d.mgmt.asms.map (·.body.length) == [64])
    , replies (.setEndpointId 9 1) (lab id) [0, 0, 1, 0, 0, 9, 0]
    , replies .getEndpointId (lab id) [0, 0, 2, 0, 0, 0, 0]
    , replies .getMessageTypeSupport (lab id) [0, 0, 5, 0, 1, 0x7F]
    , replies (.getMctpVersionSupport 5) (lab id) [0, 0, 4, 0x80]
    , after .smbusTimeout (lab id) (fun t => t.d.mgmt.smbTo == 1)
    , after .responseRetry (labMgmt fun m => { m with resp := [[1]], tries := 2 }) (fun t => t.d.mgmt.tries == 3 && t.d.mgmt.out == [[1]])
    , after .responseRetry (labMgmt fun m => { m with resp := [[1]], tries := 3 }) (fun t => t.d.mgmt.resp.isEmpty && t.d.mgmt.out.isEmpty)
    , after .alertResponse (lab id) (fun t => t.d.mgmt == Mgmt.reset)
    , after .getEndpointId (labPwr parked) (fun t => t.d.mgmt.out.isEmpty) ].all id = true := by decide +kernel

/-- The worked READ of register 0xF120: its packet has the PEC 0xAD (18, "A register read over the bus"). -/
theorem test_pec : pec [0xB4, 0x0F, 0x0F, 0x21, 0x01, 0x1D, 0x08, 0xCB, 0x7F, 0x00, 0x01, 0x2F, 0x8B, 0x01, 0x01, 0x20, 0xF1, 0x01] = 0xAD := by decide +kernel

/-- An event source that holds ALERT#. -/
theorem wit_alert : (lab fun d => d.onEvr fun e => { e with srcs := [(1, { e.src 1 with latch := true, en := true, alert := true })] }).d.evr.alerting = [1] := by
  decide +kernel

/-- In RECOVERY. -/
def recLab (f : Mgmt → Mgmt) : State := lab fun d => (d.onPwr fun p => { p with cur := 2 }).onMgmt f

theorem wit_messages :
    [ replies (.mctpRead 0xFFFC 1) (lab id) (vendorHead ++ [1, 1, 0] ++ ((lab id).readRegs .smbus 0xFFFC 1).1.flatMap (fun w => leBytes 4 w.toNat))
    , replies (.mctpRead 0xFFFC 2) (lab id) (vendorHead ++ [1, 1, 1])
    , replies (.mctpRead 0 0) (lab id) (vendorHead ++ [1, 1, 1])
    , replies (.mctpWrite 0x5010 1 [1, 0, 0, 0]) (lab id) (vendorHead ++ [1, 2, 0]) &&
        after (.mctpWrite 0x5010 1 [1, 0, 0, 0]) (lab id) fun t => t.d.sys.posted == [{ path := .smbus, off := 0x5010, val := 1 }]
    , replies (.mctpWrite 0x5010 1 [1, 0, 0, 0]) (labMgmt fun m => { m with secReq := true }) (vendorHead ++ [1, 2, 2])
    , replies .status (lab id) (vendorHead ++ [2, 1, 0] ++ (lab id).statusData)
    , replies (.areaErase 2) (lab id) (vendorHead ++ [2, 2, 0]) && after (.areaErase 2) (lab id) fun t => t.d.mgmt.areaBusy == some 2
    , replies (.areaErase 0) (lab id) (vendorHead ++ [2, 2, 5])
    , replies (.areaErase 1) (recLab fun m => { m with areaBusy := some 0 }) (vendorHead ++ [2, 2, 3])
    , after .areaEraseComplete { lab (fun d => d.onMgmt fun m => { m with areaBusy := some 2 }) with nv := { flash := [(5, 1), (0x60000, 2)], fuses := 0 } }
        (fun t => t.nv.flash == [(5, 1)] && t.d.mgmt.areaBusy == none)
    , replies (.areaWrite 2 0 [1, 2, 3, 4]) (lab id) (vendorHead ++ [2, 3, 0])
    , replies (.areaWrite 2 0 [1, 2, 3, 4]) { lab id with nv := { flash := [(0x60000, 2)], fuses := 0 } } (vendorHead ++ [2, 3, 2])
    , after (.areaWrite 2 (512 * 1024 - 4) [1, 2, 3, 4]) (lab id) (fun t => t.nv.flash.map (·.1) == [0xDFFFC, 0xDFFFD, 0xDFFFE, 0xDFFFF])
    , replies (.slotVerify 1) (recLab id) (vendorHead ++ [2, 4, 0, 1])
    , replies (.slotVerify 1) (lab id) (vendorHead ++ [2, 4, 5])
    , replies (.slotInstall 1) (recLab fun m => { m with verified := [1] }) (vendorHead ++ [2, 5, 0]) &&
        after (.slotInstall 1) (recLab fun m => { m with verified := [1] }) fun t => t.nv.boot.slot == 1 && t.nv.boot.recovered
    , replies (.slotInstall 0) (recLab fun m => { m with verified := [1] }) (vendorHead ++ [2, 5, 4]) ].all id = true := by decide +kernel

def session7 : Session := { isOpen := true, id := 7, tenant := 1, key := fill 64 1, counter := 0, challenge := none, last := 0 }

/-- The laboratory with that session open at life clock `n`. -/
def sessLab (n : Nat) : State := lab fun d => (d.onMgmt fun m => { m with session := session7 }).onClk fun c => { c with life := n }

theorem wit_session :
    [ (lab id).d.sessionsUp && after .sessionChallenge (lab id) (fun t => !t.d.mgmt.session.isOpen && t.d.mgmt.session.challenge.isSome)
    , replies .sessionChallenge (recLab id) (vendorHead ++ [3, 1, 4])
    , replies (.sessionOpen (fill 134 0)) (lab id) (vendorHead ++ [3, 2, 3])
    , replies (.sessionSealed (fill 25 0)) (sessLab 0) (vendorHead ++ [3, 3, 3])
    , replies (.sessionSealed (fill 30 0)) (lab id) (vendorHead ++ [3, 3, 3])
    , replies (.sessionClose 7) (sessLab 0) (vendorHead ++ [3, 4, 0])
    , replies (.sessionClose 8) (sessLab 0) (vendorHead ++ [3, 4, 3])
    , after .sessionTimeout (sessLab 60000000000) (fun t => !t.d.mgmt.session.isOpen)
    , after .sessionTimeout (sessLab 59999999999) (fun t => t.d.mgmt.session.isOpen)
    , after .sessionTimeout (lab id) (fun t => t == lab id) ].all id = true := by decide +kernel

/-! HighWaterMark. -/

theorem wit_hwm :
    [ (match evalOp labStore { kind := .delete, flags := 0, ks := 1, key := [65], operand := 0, value := [], recId := 0, seg := 0, off := 0, tagged := false } 8 0 with
        | .ok r => r.effs == [.delRec 1 [65]]
        | .error _ => false)
    , ((labStore.apply 8 (.delRec 1 [65])).ks? 1).map (·.hwm) == some 4 && (labStore.apply 8 (.delRec 1 [65])).get? 1 [65] == none ].all id = true := by
  decide +kernel

/-! Further clauses of FetchAndData, WaitingCommandsStart, CommandsSettle and WritesCommit. -/

/-- SQ 0 holds a BARRIER that entered after the one entry of SQ 1, which is not fetched. -/
def catchLab : State :=
  lab fun d => (d.onKvx fun k => { k with ctxs := [{ onKs1 with sq := 0, op := 0x19, avail := 5, e := zeroEntry, wait := .catchUp, started := false }] }).onSq 0
    fun q => { q with fetched := 1, head := 1 }

/-- The predecessor of command 40 ended with an error. -/
def failedPred (d : Drive) : Drive :=
  d.onSq 1 fun q => { q with recent := [{ tag := 5, status := 0x2001, avail := 0, ord := 39, disc := false }] }

/-- A BATCH whose operation 1 waits for its value. -/
def batchReads (c : Ctx) : Ctx :=
  { c with op := 0x10, ops := some [], reads := [{ what := .value 1, addr := 0x5000, rkey := 1, len := 3, issued := true }] }

/-- A PUT of SQ 1 that has all it needs and may take its turn. -/
def putWaits (p : Ctx → State → State → Bool) : Bool :=
  waitsOn 1 0x02 (entry [66] 3 0) (fun c => { c with key := some [66], vals := [(0, [7, 8, 9])] }) id p

theorem wit_r2_pipeline :
    [ catchLab.d.sq? 1 == some (labSq 1 false) && catchLab.d.catchUpDue (labSq 1 false) && catchLab.d.fetchable (labSq 1 false) true == .ok &&
        after (.sqeFetchIssue 1 1 true) catchLab fun t => t.d.kvx.ctxs.length == 2 && (t.d.sq? 1).any fun x => x.fetched == 1
    , after (.rdmaReadRefused 1 (some 0)) (labCtx batchReads (reqOn (readReq (.data 1 40) 3)))
        (fun t => (t.d.ctx? 1 40).any fun c => c.fail.any fun r => r.status == 0x6001 && r.idx == some 1)
    , after (.dominoResolve 1 0) (labCtx (fun c => { c with started := false, wait := .domino 1 39, e := { c.e with domTag := 5, domSq := 1 } }) failedPred)
        (fun t => (t.d.ctx? 1 40).any fun c => c.started && c.wait == .none && c.fail.isSome)
    , waitsOn 1 0x19 zeroEntry id id fun c s t => s.d.barrierReady c && ended c 0 t
    , waitsOn 1 0x18 zeroEntry id id fun c s t => s.d.flushReady c && ended c 0 t
    , putWaits fun c s t => c.ops.isNone && s.d.writeOpen c && s.d.writeRoom c && ended c 0 t && valueOf 66 t == some (5, [7, 8, 9]) ].all id = true := by
  decide +kernel

/-! Further clauses of ConnectionComesUp, ConnectionEnds, Doorbells, Retransmission and CongestionAndPaths. -/

/-- The REQ is answered with REJ and this reason, and changes nothing else. -/
def rejected (r : CmReq) (x : RejReason) (s : State) : Bool :=
  after (.cmReq r) s fun t => t == { s with d := s.d.onXpt fun y => { y with cmOut := y.cmOut ++ [.rej x] } }

/-- Every connection is in use. -/
def crowded : State := lab fun d => d.onXpt fun x => { x with conns := (List.range 4096).map fun i => { labConn with idx := i } }

/-- A first message other than HELLO to the connection that awaits it. -/
def failsHello (i : Instr) : Bool :=
  after i awaiting fun t => (t.d.xpt.conn 0).state == .closing && (t.d.xpt.conn 0).authF == 1 && t.d.events 0x080 == 1 && t.d.events 0x081 == 1

/-- SQ 1 frozen at its entry `abs`, with tail `tail`. -/
def frozenAt (abs tail : Nat) (d : Drive) : Drive :=
  d.onSq 1 fun q => { q with tail := tail, fetched := tail, head := tail, freeze := some { labFreeze with failAbs := abs, freezeAbs := tail, tail := tail } }

theorem wit_r2_connections :
    [ rejected { labReq with serviceId := 0x1061D30 } .serviceId (lab id)
    , rejected { labReq with pmtu := 512 } .pathMtu (lab id)
    , rejected { labReq with pmtu := 8192 } .pathMtu (lab id)
    , rejected { labReq with resources := 0 } .consumer (lab id)
    , after (.cmReq labReq) crowded fun t => t.d.xpt.cmOut == [.rej .noQp]
    , after (.cmReq labReq) (labPwr parked) fun t => t == labPwr parked
    , after (.cmReq labReq) (lab id) fun t => match t.d.xpt.cmOut with | [.rep 5 _ _] => true | _ => false
    , after (.cmRtu 0) (labConn0 fun x => { x with state := .free, pending := true, authF := 3, dbX := 4 }) (fun t => (t.d.xpt.conn 0).authF == 0 && (t.d.xpt.conn 0).dbX == 0)
    , regTest .smbus 0x5038 (.connHold .smbus) (labConn0 fun x => { x with state := .free, pending := true }) (fun d => d.sel .smbus 0x5000 == 0) (fun t => (t.d.xpt.conn 0).cmdErr)
    , failsHello (.invalidRequest 0 10 false)
    , failsHello (.sqDoorbell 0 8 (bell 1 2))
    , failsHello (.cqDoorbell 0 0x20000 (bell 1 2))
    , after (.connectionFree 0) (labConn0 fun x => { x with state := .closing, cmdErr := true, authF := 3, sendX := 4, dbX := 5 })
        (fun t => t.d.xpt.conn 0 == { Conn.fresh 0 with cmdErr := true, authF := 3, sendX := 4, dbX := 5 })
    , after (.ackTimeout 0) { again (sent (.value 1 40) .none) with d := (again (sent (.value 1 40) .none)).d.onConn 0 fun x => { x with state := .closing } }
        (fun t => (t.d.xpt.conn 0).dead && (t.d.xpt.conn 0).unacked.isEmpty)
    , after (.cmLap 0 { port := .b, ip := 9, mac := 8 }) (lab id) (fun t => t.d.xpt.cmOut == [.apr 0]) ].all id = true := by
  decide +kernel

theorem wit_r2_frozen_doorbells :
    [ (lab (frozenAt 14 20)).d.sq? 1 |>.any fun y => y.judgeHead == 14 && y.tailDist == 6 && ringDist y.depth y.judgeHead 4 == 6
    , after (.sqDoorbell 0 8 (bell 4 2)) (lab (frozenAt 14 20)) (fun t => (t.d.sq? 1).any fun x => x.tail == 20 && x.dbSeq == 2)
    , after (.sqDoorbell 0 8 (bell 13 2)) (lab (frozenAt 14 20)) (fun t => (t.d.sq? 1).any fun x => x.tail == 29)
    , after (.sqDoorbell 0 8 (bell 3 2)) (lab (frozenAt 14 20)) (fun t => (t.d.sq? 1).any fun x => x.tail == 20 && x.bad == 1)
    , after (.sqDoorbell 0 8 (bell 14 2)) (lab (frozenAt 14 30)) (fun t => (t.d.sq? 1).any fun x => x.tail == 30 && x.dbSeq == 2)
    , after (.sqDoorbell 0 8 (bell 13 2)) (lab (frozenAt 14 30)) (fun t => (t.d.sq? 1).any fun x => x.tail == 45) ].all id = true := by
  decide +kernel

/-! Further clauses of RegisterAccess, IndexAndStoreRegisters and CascadeRing. -/

/-- A posted write of the SMBus path waits. -/
def postedLab : State := lab fun d => { d with sys := { d.sys with posted := [{ path := .smbus, off := 0x5010, val := 1 }] } }

/-- The next access of the SMBus path to an offset gets no answer. -/
def mutedLab : State := lab fun d => d.onPath .smbus fun x => { x with mute := [0x2010] }

/-- Watches, and rows cached in tiles 0 and 9. -/
def tilesLab : State :=
  lab fun d => ({ d with idx := { d.idx with cam := [labRow 0, labRow 9] } } : Drive).onKvx fun k => { k with watches := [labWatch] }

theorem wit_r2_registers :
    [ after (.registerAccessTimeout .smbus 0x5010) postedLab (fun t => t.d.sys.posted.isEmpty && t.d.sys.smbus.mute.isEmpty && t.d.sys.smbus.islDown)
    , after (.registerAccessTimeout .admin 0x5010) postedLab (fun t => t.d.sys.posted.length == 1 && t.d.sys.admin.mute == [0x5010])
    , after (.registerWrite .smbus 0x2010 7) mutedLab (fun t => t.d.sys.smbus.mute.isEmpty && t.d.pwr.autoIdle == 0)
    , ((mutedLab.readReg .smbus 0x2010).1 == 0xFFFFFFFF) && (mutedLab.readReg .admin 0x2010).1 != 0xFFFFFFFF
    , regTest .smbus 0x8100 (.tilecfgWrite .smbus 9) tilesLab (fun d => d.idx.quadWhole 0 && d.idx.workQuad.isSome && !d.idx.patternQuad 0)
        (fun t => t.d.idx.pquad == 8 && t.d.idx.pnext == some 9 && (t.d.idx.tile 3).pend && (t.d.idx.tile 3).todo == 1 && t.d.idx.cam == [labRow 9]
          && (t.d.idx.inQuad 0).map (·.id) == [0])
    , regTest .smbus 0x8100 (.tilecfgWrite .smbus 8) tilesLab (fun d => d.idx.patternQuad 3) (fun t => t.d.idx.pquad == 8 && t.d.idx.pnext == none) ].all id = true := by
  decide +kernel

/-- The frame that the module sends on, then. -/
def sends (i : Instr) (s : State) (m : Option RingFrame) : Bool := after i s fun t => t.d.csc.mo == m

/-- The FIND of the window has its value at hand. -/
def wonLab : State :=
  let s := findLab 0 fun c => { c with run := findRun }
  { s with d := s.d.onKvx fun k => { k with ctxs := k.ctxs.map fun c => { c with data := [1, 2, 3], out := [{ addr := 0x5000, rkey := 1, len := 64 }] } } }

theorem wit_r2_ring :
    [ sends .ringJoin (labCsc fun c => { c with en := true, clkMst := true, drives := true }) (some (.collect { roll := true, seq := 0, mismatch := false, slots := 1 }))
    , after .ringJoin (lab id) (fun t => t.d.csc.clkOk && !t.d.csc.inRing)
    , sends (.pass1Return true 0 false 2 none) (labCsc fun c => { c with inRing := true }) (some (.collect { roll := true, seq := 0, mismatch := false, slots := 3 }))
    , sends (.pass1Return true 0 false 1 none) (labCsc fun c => { c with inRing := true }) (some (.collect { roll := true, seq := 0, mismatch := true, slots := 1 }))
    , sends (.pass1Return false 7 false 4 none) (findLab 0 fun c => { c with run := findRun }) (some (.collect { roll := false, seq := 7, mismatch := false, slots := 5 }))
    , sends (.pass1Return false 7 false 4 none) (findLab 0x1001 fun c => { c with run := findRun }) (some (.collect { roll := false, seq := 7, mismatch := false, slots := 4 }))
    , sends (.pass1Return false 8 false 4 none) (findLab 0 fun c => { c with run := findRun }) (some (.collect { roll := false, seq := 8, mismatch := true, slots := 5 }))
    , after (.pass1Return false 7 false 6 (some 0)) (findLab 0 fun c => { c with drives := true, run := findRun })
        (fun t => t.d.csc.run.any fun w => w.sent.any fun f => f.win == 0 && f.valid && f.slots == 7)
    , sends (.pass2Receive true false 0 false 6 0 false) (labCsc fun c => { c with inRing := true })
        (some (.result { roll := true, void := false, seq := 0, mismatch := false, slots := 6, win := 0, valid := false }))
    , sends .arbitrationStart (findLab 0 fun c => { c with drives := true }) (some (.collect { roll := false, seq := 7, mismatch := false, slots := 1 }))
    , regTest .smbus 0xF000 (.clkmstWrite .smbus 0) (labCsc fun c => { c with clkMst := true, drives := true, clkOk := true, mo := some (.collect { roll := true, seq := 0, mismatch := false, slots := 1 }) })
        (fun _ => true) (fun t => t.d.csc.mo == none)
    , after (.pass2Receive false false 7 false 1 0 true) wonLab (fun t => t.d.csc.won == 1 && t.d.csc.find.isEmpty &&
        (t.d.xpt.conn 0).unacked.any fun r => r.data == [1, 2, 3]) ].all id = true := by
  decide +kernel

/-! Further clauses of CryptoCores, DigestsAndBlobs and DramChannels. -/

/-- A bus error of AES core 3 or of digest core 19 on which a command's context runs: how the command ends. -/
def coreEnds (dig : Bool) (c : Ctx) (f : Drive → Drive) (st stage : Nat) : Bool :=
  let n := if dig then 19 else 3
  let s := lab fun d => f ((d.onKvx fun k => { k with ctxs := [c] }).onCry fun x => { x with ctxs := [{ running40 n with digest := dig }] })
  s.d.soleCtx 1 40 && after (.cryBusError (if dig then 19 else 3)) s fun t => (t.d.ctx? 1 40).any fun x =>
    if c.turned then x.settled && x.res.status == st && x.res.stage == stage
    else !x.settled && x.fail.any fun r => r.status == st && r.stage == stage

/-- Key space 1 is ANCHORED. -/
def anchoredKs (d : Drive) : Drive := d.onKvx fun k => { k with store := { k.store with kss := [{ labKs with vclass := .anchored }] } }

def putCtx (flags : BitVec 8) : Ctx := { onKs1 with op := 2, e := entry [66] 3 flags, key := some [66] }

theorem wit_r2_cores :
    [ after (.katRound 0 8 true) (lab fun d => d.onCry fun c => { c with ctxs := [{ running40 19 with digest := true }] })
        (fun t => t.d.cry.digFence == 8 && t.d.cry.aesFence == 0 && t.d.cry.ctxs.isEmpty && t.d.cry.katAt == some 0)
    , coreEnds true (putCtx 0x80) id 0x9001 0xC
    , coreEnds true { onKs1 with op := 8 } id 0x8003 9
    , coreEnds true (putCtx 0) id 0x9001 0xC
    , coreEnds true { onKs1 with key := some [65] } anchoredKs 0x8003 9
    , coreEnds false { onKs1 with op := 0x4C } id 0x8003 9
    , coreEnds false (putCtx 0) (fun d => d.onCry fun c => { c with vauth := true }) 0x8003 9
    , coreEnds false (putCtx 0) id 0x9001 0xC
    , coreEnds false { onKs1 with key := some [65], tagged := [0] } taggedLab 0x8003 9
    , coreEnds false { onKs1 with key := some [65], tagged := [0], turned := true } taggedLab 0x8003 9
    , coreEnds true { onKs1 with op := 0x4C } id 0x8003 9
    , coreEnds true { putCtx 0x80 with reads := [{ what := .value 0, addr := 0x5000, rkey := 1, len := 3, issued := false }] } anchoredKs 0x9001 0xC
    , coreEnds true (putCtx 0x80) anchoredKs 0x8003 9
    , after (.digDone 0) (labDig fun g => { g with busy := true }) (dig0 (·.done))
    , after (.digDone 0) { labDig fun g => { g with busy := true } with d := (labDig fun g => { g with busy := true }).d.onUpd fun u => { u with fenced := [7] } } (dig0 (·.busy))
    , after (.digDone 0) { labDig fun g => { g with busy := true } with d := (labDig fun g => { g with busy := true }).d.onCry fun c => { c with digFence := 0xFF } } (dig0 (·.busy)) ].all id = true := by
  decide +kernel

/-- A PUT of 8192 bytes is staged before its turn; two values and two index pages, the second one dirty, are in DRAM. -/
def dramLab : State :=
  lab fun d => ((d.onKvx fun k => { k with ctxs := [{ onKs1 with op := 2, e := entry [65] 8192 0, vals := [(0, fill 8192 7)] }]
                                           staged := [{ labStaged none with op := 0 }] }).onDmc fun m => { m with vals := [(65, 3), (66, 2)] }).onIdx
    fun i => { i with cached := [{ ks := 1, no := 7, part := 0, frame := 4 }, { ks := 1, no := 8, part := 0, frame := 5 }]
                      pages := [{ ks := 1, no := 8, fp := 0, bits := 0, key := [], dirty := true }] }

theorem wit_r2_dram :
    [ [(1, 0), (1, 1), (3, 0)].foldl (fun d x => d.corrected x.1 x.2) (lab id).d |> fun d =>
        (d.dmc.chan 1).ce == 2 && (d.dmc.chan 3).ce == 1 && (d.dmc.chan 0).ce == 0 && d.events 0x1E0 == 3
    , after .patrolEnd (lab id) (fun t => t == lab id)
    , after (.dramUncorrectable 2 false 0xA 5 (some 65) false) dramLab (fun t => t.d.dmc.vals == [(66, 2)])
    , after (.dramUncorrectable 2 false 0 5 (some 65) false) dramLab (fun t => t.d.kvx.staged.isEmpty && (t.d.ctx? 1 40).any fun c =>
        c.vals.isEmpty && c.reads.map (fun r => (r.addr, r.len)) == [(0x5000, 8192)])
    , after (.dramUncorrectable 2 false 3 5 none false) (lab id) (fun t => t.d.pwr.cur == 0 && t.d.bank.holdUps == 1)
    , after (.dramUncorrectable 2 false 8 5 none false) (lab id) (fun t => t.d.pwr.cur == 3 && (dram2 t).ue == 1)
    , after (.dramUncorrectable 2 false 9 5 (some 4) true) dramLab (fun t => t.d.idx.cached.map (·.frame) == [5])
    , after (.dramUncorrectable 2 false 9 5 (some 5) true) dramLab (fun t => t.d.idx.cached.map (·.frame) == [4, 5]) ].all id = true := by
  decide +kernel

/-! Further clauses of LiveActions, SelftestAndSanitize and SealedSession. -/

/-- A PUT of SQ 1 that may take its turn, the crypto island fenced, and a release of it under way. -/
def clampLab : State :=
  lab fun d => (d.onKvx fun k => { k with ctxs := [{ onKs1 with op := 2, e := entry [66] 3 0, key := some [66], vals := [(0, [7, 8, 9])] }] }).onUpd fun u =>
    { u with fenced := [7], clamped := [(7, 1, 40)], actions := [labAct 0x0A 2 7], actSerial := 4 }

/-- A challenge, the fields of an OPEN (tenant 1, session 7, the base point of P-384) and the request with its HMAC, which was computed
outside the model. -/
def openLab : State := labMgmt fun m => { m with session := { session7 with isOpen := false, challenge := some (fill 32 5) } }
def openFields : Bytes := leBytes 4 1 ++ leBytes 2 7 ++ beBytes 48 p384Gx ++ beBytes 48 p384Gy
def openHmac : Bytes :=
  [0xB0, 0x6A, 0xA8, 0x3B, 0xE9, 0x71, 0x48, 0xB2, 0x18, 0xAF, 0x31, 0x8C, 0x8F, 0x67, 0x54, 0xEB,
    0x5C, 0x23, 0xC7, 0x58, 0xA3, 0x0A, 0x21, 0xB0, 0x6F, 0x0C, 0x55, 0xD6, 0x43, 0xD8, 0x8C, 0x08]
def openMsg : Bytes := openFields ++ openHmac

/-- A sealed READ of register 0xFFFC in session 7 with counter 1, sealed by AES-256-GCM outside the model. -/
def sealedMsg : Bytes :=
  [0x07, 0x00, 0x01, 0x00, 0x00, 0x00, 0x00, 0x00, 0x00, 0x00, 0x56, 0x6B, 0xE3, 0x39, 0xA0, 0x3A,
    0x22, 0x58, 0xA7, 0x53, 0x97, 0x58, 0x36, 0x4E, 0xEE, 0xDE, 0x57, 0xBA, 0x68, 0x93]

theorem wit_r2_islands :
    [ (clampLab.d.find? 1 0 fun x => clampLab.d.turnAllowed x).any fun c => clampLab.d.clampOf c == some 7 && c.fail.isNone
    , (clampLab.d.upd.running.find? fun a => a.serial == 4) == some (labAct 0x0A 2 7) && after (.liveActionEnd 4 true 0) clampLab fun t =>
        t.d.upd.fenced.isEmpty && t.d.upd.clamped.isEmpty && (t.d.ctx? 1 40).any (·.settled) && valueOf 66 t == some (5, [7, 8, 9])
    , actTest 2 5 .actTileFence (fun t => (t.d.idx.tile 5).fenced && (t.d.idx.tile 5).pend && (t.d.idx.tile 5).todo == 0)
    , after (.sanitizeStepComplete 0) (sanLab 3 true id) (fun t => t.d.upd.sanStep == 4 && t.d.kvx.store.kss.all (·.mediaKey.isNone))
    , after (.sanitizeStepComplete 0) (sanLab 3 true fun d => d.onCry fun c => { c with ctxs := [{ id := 40, cls := 0, digest := false, place := .exported 0 }] })
        (fun t => t.d.cry.ctxs.isEmpty && t.d.cry.records.isEmpty)
    , after (.sanitizeStepComplete 0) (sanLab 4 true fun d => d.onIdx fun i => { i with cam := [labRow 0] }) (fun t => t.d.idx.cam.isEmpty && t.d.upd.sanStep == 5)
    , ({ labStore with kss := [labKs, { labKs with id := 2, slot := 3 }], slots := [{ slot := 3, key := [7], persistent := false }] } : Store).dropVolatile.kss.map
        (·.mediaKey.isSome) == [true, false] ].all id = true := by
  decide +kernel

/-- A sealed message of class 9, sealed by the model, in session 7 with counter 1. -/
def otherMsg : Bytes :=
  [7, 0, 1, 0, 0, 0, 0, 0, 0, 0] ++ gcmSeal (fill 32 1) (leBytes 8 1 ++ leBytes 4 0) (vendorHead ++ [3, 3] ++ [7, 0, 1, 0, 0, 0, 0, 0, 0, 0]) [9, 1, 2]

theorem wit_r3_session :
    [ replies (.sessionOpen (fill 134 0)) openLab (vendorHead ++ [3, 2, 3])
    , replies (.sessionOpen (openMsg.set 133 0)) openLab (vendorHead ++ [3, 2, 3])
    , replies (.sessionOpen (openMsg.take 133)) openLab (vendorHead ++ [3, 2, 3])
    , replies (.sessionOpen openMsg) (recLab id) (vendorHead ++ [3, 2, 4])
    , replies (.sessionSealed sealedMsg) (recLab id) (vendorHead ++ [3, 3, 4])
    , replies (.sessionClose 7) (recLab id) (vendorHead ++ [3, 4, 4])
    , after (.sessionClose 7) (labPwr parked) (fun t => t == labPwr parked)
    , after (.sessionOpen openMsg) (labPwr parked) (fun t => t == labPwr parked)
    , after (.sessionSealed sealedMsg) (labPwr parked) (fun t => t == labPwr parked)
    , after .sessionChallenge (labPwr parked) (fun t => t == labPwr parked)
    , after (.sessionSealed otherMsg) (sessLab 0) (fun t => t.d.mgmt.mDrop == 1 && t.d.mgmt.session.counter == 1 && t.d.mgmt.out.isEmpty)
    , ((labMgmt fun m => { m with secReq := true }).plainMsg true ([1, 2] ++ leBytes 2 0x5010 ++ [1] ++ [1, 0, 0, 0])).1 == some [1, 2, 0] ].all id = true := by
  decide +kernel

theorem wit_r2_session :
    [ openMsg.length == 134 && le openMsg 4 2 == 7 && onCurve (beNat (slice openMsg 6 48)) (beNat (slice openMsg 54 48)) && le openMsg 0 4 == 1
    , hmacSha256 [1] (fill 32 5 ++ openFields) == openHmac && openLab.d.sessionsUp
    , after (.sessionSealed sealedMsg) (sessLab 0) fun t => t.d.mgmt.session.isOpen && t.d.mgmt.session.counter == 1 && t.d.mgmt.resp.length == 1 ].all id = true := by
  decide +kernel

/-! Further clauses of KeySpaceCommands, QueueCommands and SetReads. -/

/-- SQ 1 is frozen at position 14 with tail 20, its error record written. -/
def wrapLab : State := labQ 0 fun d => (frozenAt 14 20 d).onSq 1 fun q => { q with freeze := q.freeze.map fun f => { f with recSeq := some 1 } }

/-- A RESUME of SQ 1 at ring index `i`: the statuses and the fetched position then. -/
def resumes (i st at_ : Nat) : Bool :=
  let e := (adminEntry 0 ([1, 0, 0, 0] ++ leBytes 2 i)).withBit 2 false
  turnOf wrapLab 0 0x45 e [] fun c _ => after (.qrestartResume 0 (adminEntry 0 ([1, 0, 0, 0] ++ leBytes 2 i)) []) wrapLab fun t =>
    ended c st t && (st != 0 || (t.d.sq? 1).any fun x => x.fetched == at_ && x.freeze.isNone)

theorem wit_r2_commands :
    [ resumes 14 0 14
    , resumes 15 0 15
    , resumes 4 0 20
    , resumes 5 0x2002 0
    , resumes 13 0x2002 0
    , resumes 16 0x2002 0
    , turnOf (labQ 0 id) 0 0x42 (ksEntry 1) [(0x5000, descBytes 1 1 1)] (fun c s' => adminOk c s' && labKs.mediaKey.isSome &&
        (s'.d.kvx.store.slotKey 0xFFFF).isSome && after (.ksmodify 0 (ksEntry 1) [(0x5000, descBytes 1 1 1)]) (labQ 0 id) fun t => ended c 0 t)
    , turnOf keysLab 1 0x11 { entry [] 512 0x20 with cmd := padTo 16 [10] } [] (fun c s' =>
        (s'.d.scan c labKs none).pages.all fun p => (s'.d.pageFault labKs.id p).isNone)
    , turnOf keysLab 1 0x12 searchEntry [(0x9000, patternBlock 66)] (fun c s' =>
        (s'.d.scan c labKs none).pages.all fun p => (s'.d.pageFault labKs.id p).isNone) ].all id = true := by
  decide +kernel

/-! Well-formedness: for each check an ill-formed command, which it refuses, and the laboratory's commands, which it accepts. -/

def goodEntry : Sqe := { key := fill 48 0, val := fill 32 0, cmd := fill 16 0 }

theorem test_ill_formed :
    [ Instr.get 0x4000 goodEntry [], .put 1 { goodEntry with key := [65] } [], .flush 1 { goodEntry with val := fill 31 0 } []
    , .abort 0 { goodEntry with cmd := fill 17 0 } [], .put 1 goodEntry [(2 ^ 64 - 1, [1, 2])], .cmRtu 0x1000, .turn 1 0x10000
    , .rebuildEnd 0x1000, .registerWrite .smbus 2 0, .registerWrite .smbus 0x10000 0, .fold 0x100000 0, .fold 0 0x100000
    , .spareRebuildEnd 32, .linkUp .a 6 true, .sqeFetchIssue 1 0 false, .sqeFetchIssue 1 33 false, .sqeArrival 1 [fill 127 0]
    , .cipherPreempt false 4 0, .codewordRead 1 0 (2 ^ 25) 0 true false true, .sqDoorbell 0 (2 ^ 21) [], .mctpRead 0 0x100
    , .mctpWrite 0x10000 1 [], .areaErase 0x100, .areaWrite 0 (2 ^ 32) [] ].all (fun i => !i.wf) = true := by decide +kernel

theorem test_well_formed :
    [ Instr.get 0x3FFF goodEntry [], .put 1 (entry [66] 3 0) mem3, .put 1 goodEntry [(2 ^ 64 - 2, [1, 2])], .cmRtu 0xFFF, .turn 1 0xFFFF
    , .rebuildEnd 0xFFF, .registerWrite .smbus 0xFFFC 0, .fold 0xFFFFF 0xFFFFF, .spareRebuildEnd 31, .linkUp .a 5 true
    , .sqeFetchIssue 1 32 false, .sqeArrival 1 [fill 128 0], .cipherPreempt false 3 0, .codewordRead 1 0 (2 ^ 25 - 1) 0 true false true
    , .sqDoorbell 0 (2 ^ 21 - 1) [], .mctpRead 0 0xFF, .areaErase 0xFF, .areaWrite 0xFF (2 ^ 32 - 1) [] ].all Instr.wf = true := by
  decide +kernel

/-- The table gives its rows no bits: no word is a command. -/
theorem test_no_words : decodeTableWord 0 0 = none ∧ decodeTableWord 32 0xFFFFFFFF = none ∧ State.reset.withFetchWord 32 5 = State.reset :=
  ⟨rfl, rfl, rfl⟩

/-- The tweak of R468's example: record ID 0x3A41F27, key space 0x0B2, unit 2 (12_cipher_and_digest.md, R470). -/
theorem test_unit_tweak : unitTweak 0x3A41F27 2 0x0B2 0 = [0x27, 0x1F, 0xA4, 0x03, 0, 0, 0, 0, 2, 0, 0, 0, 0xB2, 0, 0, 0] := by
  decide +kernel

end Sys2Proof.Tests
end

namespace Sys2Proof.Machine

/-! Register paths: what a change of one path's registers reads as, and what it leaves alone (R650, R651). -/

theorem Drive.onSys_same (f : Sys → Sys) (d : Drive) : d.SameBut [.sys] (d.onSys f) := by
  refine ⟨fun p hp => ?_⟩
  cases p with
  | sys => exact absurd (List.mem_singleton.2 rfl) hp
  | _ => rfl

/-- Posted writes are no part of a path's registers. -/
@[simp] theorem Sys.path_posted (p : Path) (y : Sys) (l : List Posted) : ({ y with posted := l } : Sys).path p = y.path p := by
  cases p <;> rfl

theorem Drive.onPath_same (p : Path) (f : PathRegs → PathRegs) (d : Drive) : d.SameBut [.sys] (d.onPath p f) := d.onSys_same _

@[simp] theorem Drive.onPath_path (p : Path) (f : PathRegs → PathRegs) (d : Drive) : (d.onPath p f).sys.path p = f (d.sys.path p) := by
  cases p <;> rfl

theorem Drive.onPath_other {p q : Path} (h : q ≠ p) (f : PathRegs → PathRegs) (d : Drive) :
    (d.onPath p f).sys.path q = d.sys.path q := by
  cases p <;> cases q <;> simp [Drive.onPath, Sys.path] at h ⊢

@[simp] theorem Drive.onPath_posted (p : Path) (f : PathRegs → PathRegs) (d : Drive) : (d.onPath p f).sys.posted = d.sys.posted := by
  cases p <;> rfl

@[simp] theorem Drive.onPath_events (n : Nat) (p : Path) (f : PathRegs → PathRegs) (d : Drive) :
    (d.onPath p f).events n = d.events n := rfl

/-- A change of the register paths followed by an occurrence of an event. -/
theorem Drive.SameBut.raise {a b : Drive} (h : a.SameBut [.sys] b) (n : Nat) (x : Bytes) :
    a.SameBut (.sys :: eventParts) (b.raise n x) :=
  (h.mono (by simp)).trans ((b.raise_event n x).mono fun _ => List.mem_cons_of_mem _)

/-- An occurrence of a drive-scope source counts once in it; the two sources that another occurrence may move are left out. -/
theorem Drive.raise_counts {n : Nat} (b : Bytes) (d : Drive) (hn : (catalogue n).isSome) (h : n ≠ 0x094) (k : n ≠ 0x1F1) :
    (d.raise n b).events n = wrap32 (d.events n + 1) := by
  rw [Drive.raise_events n n b d hn h k, if_pos rfl]

/-! The rows of register accesses (R10, R19, R331, R653). -/

theorem exec_registerWrite (p : Path) (off : Nat) (v : Word) (s : State) :
    exec (.registerWrite p off v) s = .next { s with d := s.d.regWrite p off v } := rfl

theorem exec_selectWrite (p : Path) (off : Nat) (v : Word) (s : State) :
    exec (.selectWrite p off v) s = .next { s with d := if (selectMask off).isSome then s.d.regWrite p off v else s.d } := rfl

theorem exec_registerAccessTimeout (p : Path) (off : Nat) (s : State) :
    exec (.registerAccessTimeout p off) s =
      .next { s with d := if s.d.reachable && regOffset off then s.d.noAnswer p off else s.d } := rfl

theorem exec_halfLatchRead (p : Path) (off : Nat) (s : State) :
    exec (.halfLatchRead p off) s = .next (if s.d.reachable && (s.pair p off).isSome then (s.readReg p off).2 else s) := rfl

/-! An access finds its island down (R12, R19, R20). -/

@[simp] theorem Drive.foundDown_path (p : Path) (i : Nat) (d : Drive) :
    (d.foundDown p i).sys.path p = { d.sys.path p with islDown := true, isl := i } := by
  simp [Drive.foundDown]

theorem Drive.foundDown_other {p q : Path} (h : q ≠ p) (i : Nat) (d : Drive) : (d.foundDown p i).sys.path q = d.sys.path q := by
  simp [Drive.foundDown, Drive.onPath_other h]

@[simp] theorem Drive.foundDown_posted (p : Path) (i : Nat) (d : Drive) : (d.foundDown p i).sys.posted = d.sys.posted := by
  simp [Drive.foundDown]

/-- One `SYS_ISL_DOWN` (R19). -/
theorem Drive.foundDown_events (p : Path) (i : Nat) (d : Drive) : (d.foundDown p i).events 0x006 = wrap32 (d.events 0x006 + 1) := by
  rw [Drive.foundDown, Drive.raise_counts _ _ (by decide) (by decide) (by decide), Drive.onPath_events]

theorem Drive.foundDown_same (p : Path) (i : Nat) (d : Drive) : d.SameBut (.sys :: eventParts) (d.foundDown p i) :=
  (d.onPath_same p _).raise ..

/-! Where a write goes: nowhere, to an island that is down, to an access without an answer, to its register (R19-R23). -/

theorem Drive.regWrite_unreachable {d : Drive} {off : Nat} (p : Path) (v : Word) (h : d.reachable = false ∨ regOffset off = false) :
    d.regWrite p off v = d := by
  rcases h with h | h <;> simp [Drive.regWrite, h]

/-- A write that the management island lets pass takes effect behind those posted on its path. -/
theorem Drive.regWrite_reachable {d : Drive} {off : Nat} (p : Path) (v : Word) (hr : d.reachable = true) (ho : regOffset off = true) :
    d.regWrite p off v = (d.drain p).writeReg p off v := by
  simp [Drive.regWrite, hr, ho]

theorem Drive.writeReg_down {d : Drive} {off : Nat} (p : Path) (v : Word) (h : d.islState (regIsland off) ≠ 0) :
    d.writeReg p off v = d.foundDown p (regIsland off) := if_pos h

theorem Drive.muted_iff (p : Path) (off : Nat) (d : Drive) : d.muted p off = true ↔ off ∈ (d.sys.path p).mute := List.contains_iff_mem

theorem Drive.writeReg_muted {d : Drive} {p : Path} {off : Nat} (v : Word) (h : d.islState (regIsland off) = 0)
    (hm : off ∈ (d.sys.path p).mute) : d.writeReg p off v = d.unmute p off := by
  simp [Drive.writeReg, h, (d.muted_iff p off).2 hm]

theorem State.reaches_eq_some {p : Path} {off : Nat} {s : State} {d : Drive} (h : s.reaches p off = some d) :
    s.d.reachable = true ∧ regOffset off = true ∧ s.d.drain p = d ∧ d.islState (regIsland off) = 0 ∧ d.muted p off = false := by
  simp only [State.reaches, Option.ite_none_right_eq_some, Bool.and_eq_true, beq_iff_eq, Bool.not_eq_true', Option.some.injEq] at h
  obtain ⟨⟨⟨⟨hr, ho⟩, hi⟩, hm⟩, rfl⟩ := h
  exact ⟨hr, ho, rfl, hi, hm⟩

theorem State.regWrite_of_reaches {p : Path} {off : Nat} {s : State} {d : Drive} (v : Word) (h : s.reaches p off = some d) :
    s.d.regWrite p off v = d.writeHere p off v.toNat := by
  obtain ⟨hr, ho, rfl, hi, hm⟩ := State.reaches_eq_some h
  simp [Drive.regWrite_reachable p v hr ho, Drive.writeReg, hi, hm]

/-- A write that reaches its register: the row `registerWrite` is that register's own effect. -/
theorem exec_registerWrite_of_reaches {p : Path} {off : Nat} {s : State} {d : Drive} (v : Word) (h : s.reaches p off = some d) :
    exec (.registerWrite p off v) s = .next { s with d := d.writeHere p off v.toNat } := by
  rw [exec_registerWrite, State.regWrite_of_reaches v h]

/-- A write that the management island lets pass. -/
theorem exec_registerWrite_of_reachable {off : Nat} {s : State} (p : Path) (v : Word) (hr : s.d.reachable = true)
    (ho : regOffset off = true) : exec (.registerWrite p off v) s = .next { s with d := (s.d.drain p).writeReg p off v } := by
  rw [exec_registerWrite, Drive.regWrite_reachable p v hr ho]

/-! Select and staging registers (R651-R653). -/

theorem Drive.writeHere_select {off m : Nat} (p : Path) (v : Nat) (d : Drive) (h : selectMask off = some m) :
    d.writeHere p off v = d.writeSel p off m v := by
  simp [Drive.writeHere, h]

/-- A value that names what exists is stored. -/
theorem Drive.writeSel_valid {off m v : Nat} (p : Path) (d : Drive) (h : selectClamp off (v &&& m) = none) :
    d.writeSel p off m v = d.onPath p fun r => { r with sel := setKey r.sel off (v &&& m) } := by
  simp [Drive.writeSel, h]

/-- A value that names nothing there is clamped, flagged and reported (R15, R653). -/
theorem Drive.writeSel_clamped {off m v c : Nat} (p : Path) (d : Drive) (h : selectClamp off (v &&& m) = some c) :
    d.writeSel p off m v =
      (d.onPath p fun r => { r with sel := setKey r.sel off c, selErr := true, selReg := off }).raise 0x007
        (leBytes 2 off ++ leBytes 1 (pathCode p)) := by
  simp [Drive.writeSel, h]

/-- A row about a select register is the write of that register. -/
theorem exec_selectWrite_of_reaches {p : Path} {off m : Nat} {s : State} {d : Drive} (v : Word) (h : s.reaches p off = some d)
    (hm : selectMask off = some m) : exec (.selectWrite p off v) s = .next { s with d := d.writeSel p off m v.toNat } := by
  simp [exec_selectWrite, hm, State.regWrite_of_reaches v h, Drive.writeHere_select]

/-- No staging register is a select register. -/
theorem selectMask_of_staging {off : Nat} (h : isStaging off = true) : selectMask off = none := by
  unfold selectMask
  split <;> simp [isStaging] at h ⊢

theorem Drive.writeHere_staging {off : Nat} (p : Path) (v : Nat) (d : Drive) (h : isStaging off = true) :
    d.writeHere p off v = d.writeStaging p off v := by
  simp [Drive.writeHere, selectMask_of_staging h, h]

@[simp] theorem Drive.writeStaging_staged (p : Path) (off o v : Nat) (d : Drive) :
    (d.writeStaging p off v).staged p o = if o = off then v &&& stagingMask off else d.staged p o := by
  simp [Drive.writeStaging, Drive.staged, lookupD_setKey]

/-! Plain registers that take their field within its limits (R332, R385, R454, R511, R537). -/

theorem field_zero (v w : Nat) : field v 0 w = v % 2 ^ w := by simp [field]

/-- A bit of a register word. -/
theorem bit_toNat (v : Word) (i : Nat) : bit v.toNat i = v.getLsbD i := by
  rw [BitVec.getLsbD, Nat.testBit_eq_decide_div_mod_eq]; rfl

theorem Drive.writeHere_autoIdle (p : Path) (v : Nat) (d : Drive) :
    d.writeHere p 0x2010 v = d.onPwr fun x => { x with autoIdle := v % 2 ^ 16 } := by
  rw [← field_zero]; rfl

theorem Drive.writeHere_priority (p : Path) (v : Word) (d : Drive) :
    d.writeHere p 0xF004 v.toNat = d.onCsc fun c => { c with high := v.getLsbD 0 } := by
  rw [← bit_toNat]; rfl

theorem Drive.writeHere_helloLimit (p : Path) (v : Nat) (d : Drive) :
    d.writeHere p 0x5104 v = d.onXpt fun x => { x with helloTo := max 100 (min 60000 (v % 2 ^ 16)) } := by
  rw [← field_zero]; rfl

theorem Drive.writeHere_scrubInterval (p : Path) (v : Nat) (d : Drive) :
    d.writeHere p 0x913C v = d.onMed fun m => { m with scrubIv := max 1 (min 90 (v % 2 ^ 7)) } := by
  rw [← field_zero]; rfl

theorem Drive.writeHere_patrolRate (p : Path) (v : Nat) (d : Drive) :
    d.writeHere p 0xA100 v = d.onDmc fun m => { m with page := max 1 (v % 2 ^ 10) } := by
  rw [← field_zero]; rfl

/-! The upper half of a pair (R331). -/

/-- Where a pair starts is a matter of the offset alone. -/
theorem State.pair_isSome_eq (p : Path) (off : Nat) (s t : State) : (s.pair p off).isSome = (t.pair p off).isSome := by
  unfold State.pair
  split <;> simp only [Option.isSome_some, Option.isSome_none]

theorem State.readLatched_pair {p : Path} {off v : Nat} {s : State} (h : s.pair p off = some v) :
    (s.readLatched p off).2 = s.d.onPath p fun r => { r with latch := setKey r.latch (off + 4) (v / 2 ^ 32 % 2 ^ 32) } := by
  simp [State.readLatched, h]

/-- The read of a register that it reaches. -/
theorem State.readReg_of_reaches {p : Path} {off : Nat} {s : State} {d : Drive} (h : s.reaches p off = some d) :
    (s.readReg p off).2 = { s with d := (State.readLatched p off { s with d := d }).2 } := by
  obtain ⟨-, -, rfl, hi, hm⟩ := State.reaches_eq_some h
  simp [State.readReg, hi, hm]

/-- The read of a `_LO` register that it reaches leaves the upper half in the latch of its path. -/
theorem exec_halfLatchRead_of_pair {p : Path} {off v : Nat} {s : State} {d : Drive} (h : s.reaches p off = some d)
    (hv : State.pair p off { s with d := d } = some v) :
    exec (.halfLatchRead p off) s =
      .next { s with d := d.onPath p fun r => { r with latch := setKey r.latch (off + 4) (v / 2 ^ 32 % 2 ^ 32) } } := by
  have hs : (s.pair p off).isSome = true := by rw [State.pair_isSome_eq p off s { s with d := d }, hv]; rfl
  obtain ⟨hr, -⟩ := State.reaches_eq_some h
  simp [exec_halfLatchRead, hr, hs, State.readReg_of_reaches h, State.readLatched_pair hv]

/-! Accesses without an answer (R19). -/

/-- The write that waits for its island is discarded. -/
theorem Drive.noAnswer_posted {p : Path} {off : Nat} {d : Drive} {w : Posted}
    (h : d.sys.posted.find? (fun w => w.path == p && w.off == off) = some w) :
    d.noAnswer p off = (d.onSys fun y => { y with posted := y.posted.erase w }).foundDown p (regIsland off) := by
  simp [Drive.noAnswer, h]

/-- Where none waits, the next access of the path to `off` is the one that gets no answer. -/
theorem Drive.noAnswer_next {p : Path} {off : Nat} {d : Drive}
    (h : d.sys.posted.find? (fun w => w.path == p && w.off == off) = none) :
    d.noAnswer p off = (d.onPath p fun r => { r with mute := r.mute ++ [off] }).foundDown p (regIsland off) := by
  simp [Drive.noAnswer, h]

/-- Either way the access counts as one that found its island down. -/
theorem Drive.noAnswer_eq (p : Path) (off : Nat) (d : Drive) :
    ∃ e, d.noAnswer p off = e.foundDown p (regIsland off) ∧ d.SameBut [.sys] e ∧ ∀ q, q ≠ p → e.sys.path q = d.sys.path q := by
  cases h : d.sys.posted.find? fun w => w.path == p && w.off == off with
  | some w => exact ⟨_, Drive.noAnswer_posted h, d.onSys_same _, fun q _ => Sys.path_posted ..⟩
  | none => exact ⟨_, Drive.noAnswer_next h, d.onPath_same p _, fun q hq => Drive.onPath_other hq ..⟩

/-- One `SYS_ISL_DOWN` (R19). -/
theorem Drive.noAnswer_events (p : Path) (off : Nat) (d : Drive) : (d.noAnswer p off).events 0x006 = wrap32 (d.events 0x006 + 1) := by
  obtain ⟨e, he, hs, -⟩ := d.noAnswer_eq p off
  rw [he, Drive.foundDown_events, Drive.events, ← hs.agrees .evr (by decide), Drive.events]

theorem Drive.noAnswer_other {p q : Path} (h : q ≠ p) (off : Nat) (d : Drive) : (d.noAnswer p off).sys.path q = d.sys.path q := by
  obtain ⟨e, he, -, ho⟩ := d.noAnswer_eq p off
  rw [he, Drive.foundDown_other h, ho q h]

theorem Drive.noAnswer_same (p : Path) (off : Nat) (d : Drive) : d.SameBut (.sys :: eventParts) (d.noAnswer p off) := by
  obtain ⟨e, he, hs, -⟩ := d.noAnswer_eq p off
  exact he ▸ (hs.mono (by simp)).trans (e.foundDown_same ..)

theorem exec_registerAccessTimeout_of_reachable {off : Nat} {s : State} (p : Path) (hr : s.d.reachable = true)
    (ho : regOffset off = true) : exec (.registerAccessTimeout p off) s = .next { s with d := s.d.noAnswer p off } := by
  simp [exec_registerAccessTimeout, hr, ho]

/-- Settles O35, clause by clause: each row is the one operation that its case of the register protocol names (`foundDown`,
`noAnswer`, `unmute`, `writeSel`, `writeStaging`, a block's register, a latched read), and that operation's own lemmas say the rest. -/
theorem registerAccess : Obligations.RegisterAccess := by
  unfold Obligations.RegisterAccess
  refine ⟨?unreachable, ?down, ?noAnswer, ?muted, ?select, ?noSelect, ?staging, ?plain, ?latch⟩
  case unreachable =>
    intro s p off v h
    constructor
    · rw [exec_registerWrite, Drive.regWrite_unreachable p v h]
    · rcases h with h | h <;> simp [exec_registerAccessTimeout, h]
  case down =>
    rintro s p off v d hr ho rfl hi
    refine ⟨(s.d.drain p).foundDown p (regIsland off), ?_, Drive.foundDown_path .., fun q hq => Drive.foundDown_other hq ..,
      Drive.foundDown_events .., Drive.foundDown_same ..⟩
    rw [exec_registerWrite_of_reachable p v hr ho, Drive.writeReg_down p v hi]
  case noAnswer =>
    rintro s p off post hr ho hp
    refine ⟨s.d.noAnswer p off, exec_registerAccessTimeout_of_reachable p hr ho, Drive.noAnswer_events ..,
      fun q hq => Drive.noAnswer_other hq .., Drive.noAnswer_same .., ?_, ?_⟩
    · rintro w rfl
      simp [Drive.noAnswer_posted hp]
    · rintro rfl
      simp [Drive.noAnswer_next hp]
  case muted =>
    rintro s p off v d hr ho rfl hi hm
    refine ⟨(s.d.drain p).unmute p off, ?_, Drive.onPath_path .., fun q hq => Drive.onPath_other hq .., Drive.onPath_same ..⟩
    rw [exec_registerWrite_of_reachable p v hr ho, Drive.writeReg_muted v hi hm]
  case select =>
    intro s p off m v d h hm
    rw [exec_selectWrite_of_reaches v h hm]
    refine ⟨fun hc => ⟨_, rfl, ?_⟩, fun c hc => ⟨_, rfl, ?_⟩⟩
    · rw [Drive.writeSel_valid p d hc]
      exact ⟨by simp [Drive.sel, lookupD_setKey], fun o ho => by simp [Drive.sel, lookupD_setKey, ho], by simp,
        fun q hq => Drive.onPath_other hq .., Drive.onPath_same ..⟩
    · rw [Drive.writeSel_clamped p d hc]
      exact ⟨by simp [Drive.sel, lookupD_setKey], by simp, by simp, fun q hq => by simp [Drive.onPath_other hq],
        Drive.raise_counts _ _ (by decide) (by decide) (by decide), (d.onPath_same p _).raise ..⟩
  case noSelect =>
    intro s p off v h
    simp [exec_selectWrite, Option.isNone_iff_eq_none.1 h]
  case staging =>
    intro s p off v d h hst
    refine ⟨d.writeStaging p off v.toNat, ?_, by simp, fun o ho => by simp [ho],
      fun q hq => Drive.onPath_other hq .., Drive.onPath_same ..⟩
    rw [exec_registerWrite_of_reaches v h, Drive.writeHere_staging p _ d hst]
  case plain =>
    intro s p v d
    refine ⟨fun h => ?_, fun h => ?_, fun h => ?_, fun h => ?_, fun h => ?_⟩ <;> rw [exec_registerWrite_of_reaches v h]
    · rw [Drive.writeHere_autoIdle]; rfl
    · rw [Drive.writeHere_priority]; rfl
    · rw [Drive.writeHere_helloLimit]; rfl
    · rw [Drive.writeHere_scrubInterval]; rfl
    · rw [Drive.writeHere_patrolRate]; rfl
  case latch =>
    intro s p off v d h hv
    exact ⟨_, exec_halfLatchRead_of_pair h hv, by simp [lookupD_setKey], fun o => by simp [Drive.sel],
      fun q hq => Drive.onPath_other hq .., Drive.onPath_same ..⟩

end Sys2Proof.Machine
